-- ==== Sys2Proof/Word.lean ====
section
/-! DEFINITION. The word types of the engine (00_scope R6, section 4: a byte is 8 bits; bit 0 is the least
significant bit). -/

namespace Sys2Proof

/-- A byte: a register id, a payload, a result byte, the stored device address (R6: REGID_W, ADDR_STORE_W). -/
abbrev Byte := BitVec 8

/-- The 16 bits of a combined two-byte result (R110). -/
abbrev Half := BitVec 16

/-- The 12-bit host command word, cmd_op in bits 11 to 8 and cmd_arg in bits 7 to 0 (R70). -/
abbrev CmdWord := BitVec 12

end Sys2Proof
end

