-- ==== Sys2Proof/Syntax.lean ====
section
/-! DEFINITION. The ten operations of the engine (30_encoding R66), one constructor per row of
spec/opcode_table.json. -/

namespace Sys2Proof

/-- An operation as the host names it (R66, R76). The operand of `new` is the initial device address, that of
`setAddress` the new one: 8 bits each, not validated (R12, R71). -/
inductive Instr where
  /-- `new(address)`, R80. -/
  | new (address : Byte)
  /-- `release()`, R82. -/
  | release
  /-- `reset()`, R90: a command to the sensor, not to the engine. -/
  | reset
  /-- `trigger_measurement()`, R92. -/
  | triggerMeasurement
  /-- `set_address(new_address)`, R94. -/
  | setAddress (newAddress : Byte)
  /-- `is_busy()`, R100. -/
  | isBusy
  /-- `read_version()`, R102. -/
  | readVersion
  /-- `read_temperature()`, R104. -/
  | readTemperature
  /-- `read_capacitance()`, R106. -/
  | readCapacitance
  /-- `read_light()`, R108. -/
  | readLight
deriving DecidableEq, Repr

end Sys2Proof
end

