-- ==== Sys2Proof/WellFormed.lean ====
section
/-! DEFINITION. What the host owes of an operation as it is written (70_reset_and_hazards R154 a). The engine checks
none of it (R12): an ill-formed `new` or `set_address` runs, and stores the operand as it is. -/

namespace Sys2Proof

/-- The legal values of an address operand are 0 to 127 (R12, R30). -/
def legalOperand (a : Byte) : Bool := decide (a.toNat ≤ 127)

/-- The operand the host gives is a legal bus address (R154 a). -/
def Instr.wellFormed : Instr → Bool
  | .new a => legalOperand a
  | .release => true
  | .reset => true
  | .triggerMeasurement => true
  | .setAddress a => legalOperand a
  | .isBusy => true
  | .readVersion => true
  | .readTemperature => true
  | .readCapacitance => true
  | .readLight => true

end Sys2Proof
end

