-- ==== Sys2Proof/Decode.lean ====
section
/-! DEFINITION. The host encoding (30_encoding R66, R70, R71, R75): the decoder, total on every 12-bit command word,
and after it the encoder. The bus encoding is in Machine/Frames.lean. -/

namespace Sys2Proof

/-- `cmd_op`, bits 11 to 8 of a command word (R70). -/
def cmdOp (w : CmdWord) : BitVec 4 := BitVec.extractLsb' 8 4 w

/-- `cmd_arg`, bits 7 to 0 of a command word, an unsigned byte (R70, R71). -/
def cmdArg (w : CmdWord) : Byte := BitVec.extractLsb' 0 8 w

/-- The command word `{cmd_op, cmd_arg}` (R70). -/
def cmdWord (op : BitVec 4) (arg : Byte) : CmdWord := op ++ arg

/-- What a command word is. -/
inductive Decoded where
  /-- One of the ten operations. -/
  | instr (i : Instr)
  /-- A reserved host command code (R75). -/
  | reserved (code : BitVec 4)
deriving DecidableEq, Repr

/-- The decoder of the host's command word: the ten codes of R70, with `cmd_arg` taken whole where the operation has
an operand and ignored where it has none (R71); the codes 2, 8, A, B, C, D are reserved (R75). -/
def decode (w : CmdWord) : Decoded :=
  match (cmdOp w).toNat with
  | 0x0 => .instr .readCapacitance
  | 0x1 => .instr (.setAddress (cmdArg w))
  | 0x3 => .instr .triggerMeasurement
  | 0x4 => .instr .readLight
  | 0x5 => .instr .readTemperature
  | 0x6 => .instr .reset
  | 0x7 => .instr .readVersion
  | 0x9 => .instr .isBusy
  | 0xE => .instr (.new (cmdArg w))
  | 0xF => .instr .release
  | _ => .reserved (cmdOp w)

/-- The host command code of an operation: the last column of R66's table. -/
def hostCode : Instr → BitVec 4
  | .new _ => 0xE#4
  | .release => 0xF#4
  | .reset => 0x6#4
  | .triggerMeasurement => 0x3#4
  | .setAddress _ => 0x1#4
  | .isBusy => 0x9#4
  | .readVersion => 0x7#4
  | .readTemperature => 0x5#4
  | .readCapacitance => 0x0#4
  | .readLight => 0x4#4

/-- The content of `cmd_arg`: the operand of `new` and `set_address`; any value is equivalent elsewhere (R70, R71),
and the encoder writes 0 there. -/
def hostArg : Instr → Byte
  | .new a => a
  | .setAddress a => a
  | .release => 0
  | .reset => 0
  | .triggerMeasurement => 0
  | .isBusy => 0
  | .readVersion => 0
  | .readTemperature => 0
  | .readCapacitance => 0
  | .readLight => 0

/-- The command word of an operation (R70). -/
def encode (i : Instr) : CmdWord := cmdWord (hostCode i) (hostArg i)

/-- The operation the decoder reads from the number `w`, its bits numbered as spec/opcode_table.json numbers them. A
command word is 12 bits; a number that does not fit in them is no command word (log 23). -/
def decodeTableWord (_nbits w : Nat) : Option Instr :=
  if w < 4096 then
    match decode (BitVec.ofNat 12 w) with
    | .instr i => some i
    | .reserved _ => none
  else none

end Sys2Proof
end

