-- ==== Sys2Proof/Config.lean ====
section
/-! DEFINITION. What the spec leaves to the implementation: the open parameters of 00_scope R6
(92_eei_decisions P1 to P6), and the closed set of register ids, a constant of the hardware (10_state R18). -/

namespace Sys2Proof

/-- Which numbers, beside 0, name a transport error: OPEN, with no body (R6, P1; log 3). -/
opaque Config.namesError : Nat → Bool

/-- ErrT, the type of a transport error: "transport-defined and opaque to this component", OPEN (R6, P1). It stands as an
argument of the model: a type with at least one value (R34) of which nothing else can be proved, not even that it has two.
DESIGN CHOICE (log 3): its values are named by numbers, those of `Config.namesError`, because a state is compared and
written out; the engine uses no operation on it. -/
structure ErrT where
  token : Nat
  named : token = 0 ∨ Config.namesError token = true
deriving DecidableEq, Repr

/-- DEFAULT_ADDR, the "manufacturer default" address: OPEN, in 0 to 127, used by no engine rule (R6, P2). A free
value with no body (log 21). -/
opaque Config.defaultAddr : BitVec 7

/-- T_SETTLE in milliseconds (the delay provider's grain): OPEN, used by no engine rule; it "may not" be replaced
by a number (R159, R166, P3). A free value with no body (log 21). -/
opaque Config.settleMillis : Nat

/-- FLOAT_FMT, used only where a float result is wanted (R114, P5): the number of bits of the significand. The
exponent range does not matter, since no scaled value leaves the normal range of any format (R114; log 17). -/
structure FloatFmt where
  sigBits : Nat
deriving DecidableEq, Repr

/-- The direction of a register id (R64). -/
inductive Direction where
  | writeOnly
  | writeThenRead
deriving DecidableEq, Repr

/-- The eight register ids the engine can emit: a closed set (R31, R64). Their values are in
`Machine.regIdCode`. -/
inductive RegId where
  | cap
  | addr
  | measure
  | light
  | temp
  | reset
  | version
  | busy
deriving DecidableEq, Repr

end Sys2Proof
end

