-- ==== Sys2Proof/Machine/State.lean ====
section
/-! DEFINITION. The state of the engine (10_state), its inputs and its ghost records, all plain data, and the state
after power-on reset. -/

namespace Sys2Proof.Machine

/-- PHASE, the sequencer (R14). -/
inductive Phase where
  /-- The engine owns no transport (before `new`, after `release`). -/
  | unbound
  /-- A driver exists and no operation is in progress. -/
  | idle
  /-- The first (or only) transaction of the operation in OP_LATCH is issued and not yet answered. -/
  | xfer1
  /-- The second transaction of `set_address` is issued and not yet answered. -/
  | xfer2
deriving DecidableEq, Repr

/-- The ten operations, without operands: what OP_LATCH holds (R16). -/
inductive Op where
  | new
  | release
  | reset
  | triggerMeasurement
  | setAddress
  | isBusy
  | readVersion
  | readTemperature
  | readCapacitance
  | readLight
deriving DecidableEq, Repr

/-- One bus transaction (R22, R33): a write, or a write then a read of `n` bytes. -/
inductive Transaction where
  | write (addr : Byte) (data : List Byte)
  | writeRead (addr : Byte) (data : List Byte) (n : Nat)
deriving DecidableEq, Repr

/-- The transport's answer to one transaction, as the history records it (R22, R33). A write's `ok` holds no byte. -/
inductive Answer where
  | ok (bytes : List Byte)
  | err (e : ErrT)
deriving DecidableEq, Repr

/-- One answer of the transport still to come (R34: a draw). `ok r0 r1` answers a read of `n` bytes with the first
`n` of the two, so that every draw is an answer to every transaction with exactly the bytes R33 promises (log 2). -/
inductive Draw where
  | ok (r0 r1 : Byte)
  | err (e : ErrT)
deriving DecidableEq, Repr

/-- The response to an accepted command (R72). -/
inductive Response where
  | done
  | bool (b : Bool)
  | byte (v : Byte)
  | s16 (v : Half)
  | u16 (v : Half)
  | err (e : ErrT)
deriving DecidableEq, Repr

/-- One line of the history (R22): the transaction, its answer, and the number of the operation that issued it, counted
from 0 in the order of acceptance (the operation boundaries of R67). -/
structure Entry where
  op : Nat
  txn : Transaction
  answer : Answer
deriving DecidableEq, Repr

/-- The engine, what the outside will do to it, and the records the spec asks a model to keep. -/
structure State where
  /-- DEV_ADDR, 8 bits stored (R10 to R12). -/
  devAddr : Byte
  /-- PHASE (R14). -/
  phase : Phase
  /-- OP_LATCH (R16). -/
  opLatch : Op
  /-- ARG_LATCH (R16). -/
  argLatch : Byte
  /-- INPUT: the command words the host offers, the head now (R15, R70; log 6). -/
  hostPort : List CmdWord
  /-- INPUT: the transport's answers still to come (R34; log 1). -/
  transport : List Draw
  /-- GHOST: the transactions answered, oldest first (R22). -/
  history : List Entry
  /-- GHOST: the commands accepted, oldest first (R67, R73; log 14). -/
  accepted : List Instr
  /-- The responses given to the host, oldest first (R72, R73). -/
  responses : List Response
deriving DecidableEq, Repr

/-- Why the machine stops with a fault. -/
inductive Fault where
  /-- Raised by `fetch` where PHASE says that a transaction is outstanding and OP_LATCH names no operation that has
  such a transaction (R14 describes no such state and no run reaches one). Safe: the machine stops (log 12). -/
  | sequencer
deriving DecidableEq, Repr

/-- Why a step has no meaning. -/
inductive Refusal where
  /-- Raised by `exec` for an operation with no meaning yet, by its mnemonic. Safe: the machine stops. -/
  | notModelled (mnemonic : String)
  /-- Raised by `issue`: a transaction would be issued while DEV_ADDR is above 127; "a model treats any transaction
  issued while DEV_ADDR > 127 as refused" (R12, R165, U1). Safe: the machine stops (log 11). -/
  | addressOutOfRange
  /-- Raised by `fetch`: the host offers a reserved command code (R75, U2). Safe: the machine stops (log 10). -/
  | reservedCode (code : BitVec 4)
deriving DecidableEq, Repr

/-- The engine right after power-on reset (R23, R150): UNBOUND, history empty, no response pending. The spec gives
DEV_ADDR, OP_LATCH and ARG_LATCH no value; the zeros here are DESIGN CHOICES (log 4, log 5). No input is pending
(log 1, log 6). -/
def State.reset : State where
  devAddr := 0x00#8
  phase := .unbound
  opLatch := .readCapacitance
  argLatch := 0x00#8
  hostPort := []
  transport := []
  history := []
  accepted := []
  responses := []

end Sys2Proof.Machine
end

