-- ==== Sys2Proof/Machine/Operands.lean ====
section
/-! DEFINITION. The register-id table (30_encoding R64), and the assembly and numeric reading of results
(20_memory R39, 42_read_queries R110 to R113). -/

namespace Sys2Proof.Machine

/-- The value of a register id (R64). -/
def regIdCode : RegId → Byte
  | .cap => 0x00#8
  | .addr => 0x01#8
  | .measure => 0x03#8
  | .light => 0x04#8
  | .temp => 0x05#8
  | .reset => 0x06#8
  | .version => 0x07#8
  | .busy => 0x09#8

/-- The direction of a register id (R64). -/
def regIdDirection : RegId → Direction
  | .cap => .writeThenRead
  | .addr => .writeOnly
  | .measure => .writeOnly
  | .light => .writeThenRead
  | .temp => .writeThenRead
  | .reset => .writeOnly
  | .version => .writeThenRead
  | .busy => .writeThenRead

/-- The payload bytes after a register id (R64). -/
def regIdPayloadLen : RegId → Nat
  | .addr => 1
  | .cap => 0
  | .measure => 0
  | .light => 0
  | .temp => 0
  | .reset => 0
  | .version => 0
  | .busy => 0

/-- The result bytes of a register id (R64). -/
def regIdResultLen : RegId → Nat
  | .cap => 2
  | .addr => 0
  | .measure => 0
  | .light => 2
  | .temp => 2
  | .reset => 0
  | .version => 1
  | .busy => 1

/-- The eight register ids in the order of R64's table. -/
def regIdAll : List RegId := [.cap, .addr, .measure, .light, .temp, .reset, .version, .busy]

/-- `combine(hi, lo) = {hi, lo}`, the first byte received being the high-order one (R39, R110). -/
def combine (hi lo : Byte) : Half := hi ++ lo

/-- `uint(v)`: the unsigned reading of capacitance and light (R111). -/
def uint16 (v : Half) : Nat := v.toNat

/-- `sint16(v)`: the two's-complement reading of temperature (R105, R112). -/
def sint16 (v : Half) : Int := if v.toNat < 32768 then (v.toNat : Int) else (v.toNat : Int) - 65536

end Sys2Proof.Machine
end

