-- ==== Sys2Proof/Machine/Flags.lean ====
section
/-! DEFINITION. The engine has no flags, condition codes or predicates (10_state R21). The one truth value it computes
is the result of `is_busy`, which goes to the host and is kept nowhere. -/

namespace Sys2Proof.Machine

/-- `b = (r0 != 0x00)` (R100, R101): every nonzero byte is busy. -/
def busyBit (r0 : Byte) : Bool := r0 != 0x00#8

end Sys2Proof.Machine
end

