-- ==== Sys2Proof/Machine/Ops.lean ====
section
/-! DEFINITION. The operations the meanings share: acceptance, the two transport primitives, issuing a transaction and
consuming its answer, the response, and TAKING THE ONE EXCEPTION, the transport error (60_exceptions R132). There is no
return from it (R136). -/

namespace Sys2Proof.Machine

/-- The result of one step of the engine. -/
abbrev Result := Host.Outcome State Fault Refusal

/-- The operation of an instruction, without its operand (R16: what OP_LATCH holds). -/
def opOf : Instr → Op
  | .new _ => .new
  | .release => .release
  | .reset => .reset
  | .triggerMeasurement => .triggerMeasurement
  | .setAddress _ => .setAddress
  | .isBusy => .isBusy
  | .readVersion => .readVersion
  | .readTemperature => .readTemperature
  | .readCapacitance => .readCapacitance
  | .readLight => .readLight

/-- The instruction that OP_LATCH and ARG_LATCH name (R16). -/
def latchedInstr (op : Op) (arg : Byte) : Instr :=
  match op with
  | .new => .new arg
  | .release => .release
  | .reset => .reset
  | .triggerMeasurement => .triggerMeasurement
  | .setAddress => .setAddress arg
  | .isBusy => .isBusy
  | .readVersion => .readVersion
  | .readTemperature => .readTemperature
  | .readCapacitance => .readCapacitance
  | .readLight => .readLight

/-- The operation in progress while PHASE is XFER1 or XFER2 (R16). -/
def State.inProgress (s : State) : Instr := latchedInstr s.opLatch s.argLatch

/-- The eight operations that put frames on the bus (R66); `new` and `release` are the other two. -/
def busOp : Op → Bool
  | .new => false
  | .release => false
  | .reset => true
  | .triggerMeasurement => true
  | .setAddress => true
  | .isBusy => true
  | .readVersion => true
  | .readTemperature => true
  | .readCapacitance => true
  | .readLight => true

/-- Whether PHASE admits an instruction (the table of R14): `new` in UNBOUND, every other one in IDLE, none while a
transaction is outstanding. -/
def admits (p : Phase) (i : Instr) : Bool :=
  match p with
  | .unbound => decide (opOf i = .new)
  | .idle => decide (opOf i ≠ .new)
  | .xfer1 => false
  | .xfer2 => false

/-- A transaction is outstanding: PHASE is XFER1 or XFER2 (R35). -/
def Phase.inTransfer : Phase → Bool
  | .unbound => false
  | .idle => false
  | .xfer1 => true
  | .xfer2 => true

/-- Acceptance of a command: OP_LATCH is loaded (R16; log 7) and the command is recorded (log 14). -/
def State.accept (i : Instr) (s : State) : State :=
  { s with opLatch := opOf i, accepted := s.accepted ++ [i] }

/-- The response to the host (R72). Where the operation leaves PHASE is said by the operation (log 8). -/
def State.emit (r : Response) (s : State) : State := { s with responses := s.responses ++ [r] }

/-- `respond(r)`: the operation ends with response `r`, and PHASE becomes IDLE (00_scope section 5). -/
def State.respond (r : Response) (s : State) : State := { s.emit r with phase := .idle }

/-- `raise TransportError(e)`, the entry of the engine's one exception (R132): the response is `Err(e)` with `e` as it
came, PHASE becomes IDLE, nothing is saved and nothing else changes. -/
def State.raiseTransportError (e : ErrT) (s : State) : State := s.respond (.err e)

/-- The bytes of a written frame: the register id, then the payload where there is one (R40, R61, R62, R65). -/
def frameBytes (id : RegId) (payload : Option Byte) : List Byte := regIdCode id :: payload.toList

/-- `MemWrite`: the write transaction to DEV_ADDR (R36). -/
def memWrite (id : RegId) (payload : Option Byte) (s : State) : Transaction :=
  .write s.devAddr (frameBytes id payload)

/-- `MemRead`: the write-then-read transaction to DEV_ADDR, of the id's own result width (R37, R41, R64). -/
def memRead (id : RegId) (s : State) : Transaction :=
  .writeRead s.devAddr (frameBytes id none) (regIdResultLen id)

/-- The legal bus addresses, 0 to 127 (R12, R30). -/
def legalAddr (a : Byte) : Bool := decide (a.toNat ≤ 127)

/-- The number of bytes a transaction reads (R33). -/
def readLen : Transaction → Nat
  | .write _ _ => 0
  | .writeRead _ _ n => n

/-- The answer a draw is to a transaction that reads `n` bytes: on success exactly `n` bytes, in the order received
(R33, R37; log 2). -/
def drawAnswer (n : Nat) : Draw → Answer
  | .ok r0 r1 => .ok ([r0, r1].take n)
  | .err e => .err e

/-- Issuing a transaction: PHASE becomes `p` (R35). Refused while DEV_ADDR is above 127 (R12, R165, U1). -/
def issue (p : Phase) (s : State) : Result :=
  if legalAddr s.devAddr then .next { s with phase := p } else .refused .addressOutOfRange

/-- The answer `d` to `t` is taken: it leaves the transport and the pair joins the history, under the number of the
operation in progress (R22, R36, R37, R67). -/
def State.record (t : Transaction) (d : Draw) (ds : List Draw) (s : State) : State :=
  { s with
    transport := ds
    history := s.history ++ [⟨s.responses.length, t, drawAnswer (readLen t) d⟩] }

/-- Consuming the answer to the outstanding transaction `t` (R35). With none yet the engine stays where it is (D21,
U9). On `Err(e)` the transport error is raised (R36, R37, R131); on success the operation goes on with the bytes as
`k` says, a transaction of one byte using the first only. -/
def onAnswer (t : Transaction) (k : Byte → Byte → State → Result) (s : State) : Result :=
  match s.transport with
  | [] => .next s
  | .ok r0 r1 :: ds => k r0 r1 (s.record t (.ok r0 r1) ds)
  | .err e :: ds => .next ((s.record t (.err e) ds).raiseTransportError e)

/-- The outstanding transaction, computed from the registers that cannot change while it is outstanding (R14, R35): the
first transaction of the operation in OP_LATCH in XFER1, the reset write in XFER2. -/
def State.outstanding (s : State) : Option Transaction :=
  match s.phase with
  | .unbound => none
  | .idle => none
  | .xfer1 =>
    match s.opLatch with
    | .new => none
    | .release => none
    | .reset => some (memWrite .reset none s)
    | .triggerMeasurement => some (memWrite .measure none s)
    | .setAddress => some (memWrite .addr (some s.argLatch) s)
    | .isBusy => some (memRead .busy s)
    | .readVersion => some (memRead .version s)
    | .readTemperature => some (memRead .temp s)
    | .readCapacitance => some (memRead .cap s)
    | .readLight => some (memRead .light s)
  | .xfer2 => some (memWrite .reset none s)

/-- An operation of one transaction, over its two steps (R14, R35): accepted and issued in IDLE, its answer consumed in
XFER1, where `k` gives the response to the bytes read. Offered at any other time it is not accepted and has no effect
(R15). A meaning covers all the steps of its operation, by PHASE (log 16). -/
def oneTransaction (i : Instr) (t : State → Transaction) (k : Byte → Byte → Response) (s : State) : Result :=
  match s.phase with
  | .unbound => .next s
  | .idle => issue .xfer1 (s.accept i)
  | .xfer1 =>
    if s.inProgress = i then onAnswer (t s) (fun r0 r1 s' => .next (s'.respond (k r0 r1))) s else .next s
  | .xfer2 => .next s

end Sys2Proof.Machine
end

