-- ==== Sys2Proof/Machine/Lifecycle.lean ====
section
/-! DEFINITION. The lifecycle operations `new` and `release` (40_lifecycle). Neither puts anything on the bus and neither
can fail. -/

namespace Sys2Proof.Machine

/-- `new(address)` (R80): accepted in UNBOUND; DEV_ADDR takes all 8 bits of the address, not validated, and PHASE becomes
IDLE. -/
def execNew (address : Byte) (s : State) : Result :=
  match s.phase with
  | .unbound => .next (({ s.accept (.new address) with devAddr := address }).respond .done)
  | .idle => .next s
  | .xfer1 => .next s
  | .xfer2 => .next s

/-- `release()` (R82): accepted in IDLE; PHASE becomes UNBOUND. DEV_ADDR keeps a value no rule reads (log 9). -/
def execRelease (s : State) : Result :=
  match s.phase with
  | .unbound => .next s
  | .idle => .next (({ s.accept .release with phase := .unbound }).emit .done)
  | .xfer1 => .next s
  | .xfer2 => .next s

end Sys2Proof.Machine
end

