-- ==== Sys2Proof/Machine/ReadQueries.lean ====
section
/-! DEFINITION. The read queries (42_read_queries): one write-then-read transaction each, and a pure decoding of the
bytes it returns (R116). -/

namespace Sys2Proof.Machine

/-- `is_busy()` (R100): one byte from BUSY; nonzero is busy. -/
def execIsBusy (s : State) : Result :=
  oneTransaction .isBusy (memRead .busy) (fun r0 _ => .bool (busyBit r0)) s

/-- `read_version()` (R102): one byte from VERSION, unchanged. -/
def execReadVersion (s : State) : Result :=
  oneTransaction .readVersion (memRead .version) (fun r0 _ => .byte r0) s

/-- `read_temperature()` (R104): two bytes from TEMP, big-endian, a signed number of tenths. -/
def execReadTemperature (s : State) : Result :=
  oneTransaction .readTemperature (memRead .temp) (fun r0 r1 => .s16 (combine r0 r1)) s

/-- `read_capacitance()` (R106): two bytes from CAP, big-endian, an unsigned count, not scaled. -/
def execReadCapacitance (s : State) : Result :=
  oneTransaction .readCapacitance (memRead .cap) (fun r0 r1 => .u16 (combine r0 r1)) s

/-- `read_light()` (R108): two bytes from LIGHT, big-endian, an unsigned number of tenths. -/
def execReadLight (s : State) : Result :=
  oneTransaction .readLight (memRead .light) (fun r0 r1 => .u16 (combine r0 r1)) s

end Sys2Proof.Machine
end

