-- ==== Sys2Proof/Machine/WriteCommands.lean ====
section
/-! DEFINITION. The write-only commands `reset`, `trigger_measurement` and `set_address` (41_write_commands). -/

namespace Sys2Proof.Machine

/-- `reset()` (R90): one write of [0x06]; a command to the sensor, which leaves DEV_ADDR and the history alone. -/
def execReset (s : State) : Result :=
  oneTransaction .reset (memWrite .reset none) (fun _ _ => .done) s

/-- `trigger_measurement()` (R92): one write of [0x03]; it does not block and records nothing. -/
def execTriggerMeasurement (s : State) : Result :=
  oneTransaction .triggerMeasurement (memWrite .measure none) (fun _ _ => .done) s

/-- `set_address(new_address)` (R94): a write of [0x01, new_address], then, only if that succeeded (R97), a write of
[0x06], both to the old address; DEV_ADDR takes the new address only after both have succeeded (R95). The step that
consumes the first answer issues the second transaction (R14, R35: in XFER2 it has been issued). -/
def execSetAddress (newAddress : Byte) (s : State) : Result :=
  match s.phase with
  | .unbound => .next s
  | .idle => issue .xfer1 { s.accept (.setAddress newAddress) with argLatch := newAddress }
  | .xfer1 =>
    if s.inProgress = .setAddress newAddress then
      onAnswer (memWrite .addr (some s.argLatch) s) (fun _ _ s' => issue .xfer2 s') s
    else .next s
  | .xfer2 =>
    if s.inProgress = .setAddress newAddress then
      onAnswer (memWrite .reset none s)
        (fun _ _ s' => .next (({ s' with devAddr := s'.argLatch }).respond .done)) s
    else .next s

end Sys2Proof.Machine
end

