-- ==== Sys2Proof/Machine/Dispatch.lean ====
section
/-! DEFINITION. One arm per operation of spec/opcode_table.json, in the table's order, each a call of that operation's
meaning. -/

namespace Sys2Proof.Machine

def exec (i : Instr) (s : State) : Host.Outcome State Fault Refusal :=
  match i with
  | .new address => Sys2Proof.Machine.execNew address s
  | .release => Sys2Proof.Machine.execRelease s
  | .reset => Sys2Proof.Machine.execReset s
  | .triggerMeasurement => Sys2Proof.Machine.execTriggerMeasurement s
  | .setAddress newAddress => Sys2Proof.Machine.execSetAddress newAddress s
  | .isBusy => Sys2Proof.Machine.execIsBusy s
  | .readVersion => Sys2Proof.Machine.execReadVersion s
  | .readTemperature => Sys2Proof.Machine.execReadTemperature s
  | .readCapacitance => Sys2Proof.Machine.execReadCapacitance s
  | .readLight => Sys2Proof.Machine.execReadLight s

end Sys2Proof.Machine
end

