-- ==== Sys2Proof/Machine/Fetch.lean ====
section
/-! DEFINITION. What the next step runs. The engine fetches no instructions (10_state R14, 20_memory R48): in UNBOUND and
IDLE it takes the command word the host offers, if PHASE admits it; in XFER1 and XFER2 it goes on with the operation in
OP_LATCH and ARG_LATCH. -/

namespace Sys2Proof.Machine

/-- What `step` is to do next. -/
inductive Fetched where
  /-- Run `i` in this state (the accepted word taken from the port). -/
  | run (i : Instr) (s : State)
  /-- Nothing is offered, or what is offered is not accepted (R15): no effect. -/
  | wait
  | stop (f : Fault)
  | refuse (r : Refusal)
deriving DecidableEq, Repr

/-- The command the host offers (R15, R70, R75). A word whose operation PHASE does not admit stays at the port: "the host
waits". In UNBOUND nothing but `new` is looked at (R14, log 10); in IDLE a reserved code is refused (U2). -/
def offered (s : State) : Fetched :=
  match s.hostPort with
  | [] => .wait
  | w :: ws =>
    match decode w with
    | .instr i => if admits s.phase i then .run i { s with hostPort := ws } else .wait
    | .reserved code => if s.phase = .idle then .refuse (.reservedCode code) else .wait

/-- What the next step runs, by PHASE (R14, R16). -/
def fetch (s : State) : Fetched :=
  match s.phase with
  | .unbound => offered s
  | .idle => offered s
  | .xfer1 => if busOp s.opLatch then .run s.inProgress s else .stop .sequencer
  | .xfer2 => if s.opLatch = .setAddress then .run s.inProgress s else .stop .sequencer

/-- The host offers the word `w` first, in the PHASE that admits its operation: UNBOUND for `new`, IDLE for every other
code (R14; log 13). -/
def placeWord (w : CmdWord) (s : State) : State :=
  { s with hostPort := w :: s.hostPort, phase := if cmdOp w = 0xE#4 then .unbound else .idle }

end Sys2Proof.Machine
end

