-- ==== Sys2Proof/Machine/Step.lean ====
section
/-! DEFINITION. One step of the engine: it issues one transaction, or consumes one answer, or runs `new` or `release`, or
has nothing to do (00_scope R7, 20_memory R35). -/

namespace Sys2Proof.Machine

/-- One step (R7, R35): a waiting engine stays as it is (R15, R151; log 26). -/
def step (s : State) : Host.Outcome State Fault Refusal :=
  match fetch s with
  | .run i s' => exec i s'
  | .wait => .next s
  | .stop f => .fault f
  | .refuse r => .refused r

/-- `s` with the command word `w` offered by the host so that the next step accepts it (log 13). -/
def State.withFetchWord (s : State) (_nbits w : Nat) : State := placeWord (BitVec.ofNat 12 w) s

end Sys2Proof.Machine
end

