-- ==== Sys2Proof/Machine/HostSequences.lean ====
section
/-! DEFINITION. The host's own sequences over the engine (30_encoding R77, 43_polling_contract R124, R125,
70_reset_and_hazards R153). They are the host's code, not operations of the engine. -/

namespace Sys2Proof.Machine

/-- What a call of one operation gives the host. -/
inductive CallResult where
  /-- The response, and the machine after it. -/
  | answered (r : Response) (s : State)
  /-- No response: the command is not accepted, or the transport gives no answer (R15, U9; log 18). -/
  | hung (s : State)
  | fault (f : Fault)
  | refused (r : Refusal)
deriving DecidableEq, Repr

/-- The host offers `i` first. -/
def State.offer (i : Instr) (s : State) : State := { s with hostPort := encode i :: s.hostPort }

/-- The machine goes on for at most `fuel` steps while a transaction is outstanding. -/
def finishTransfer : Nat → State → Result
  | 0, s => .next s
  | fuel + 1, s =>
    if s.phase.inTransfer then
      match step s with
      | .next s' => finishTransfer fuel s'
      | .fault f => .fault f
      | .refused r => .refused r
    else .next s

/-- The host calls one operation and blocks until its response (R15, R73): the step that accepts the command, and at most
two that consume answers. -/
def call (i : Instr) (s : State) : CallResult :=
  match step (s.offer i) with
  | .fault f => .fault f
  | .refused r => .refused r
  | .next s1 =>
    match finishTransfer 2 s1 with
    | .fault f => .fault f
    | .refused r => .refused r
    | .next s2 =>
      match s2.responses.drop s.responses.length with
      | [] => .hung s2
      | r :: _ => .answered r s2

/-- What a host sequence returns (R124, R125). -/
inductive SeqResult where
  /-- Ready at the i-th poll. -/
  | ready (i : Nat) (s : State)
  | stillBusy (s : State)
  | err (e : ErrT) (s : State)
  /-- The response the sequence ends with. -/
  | value (r : Response) (s : State)
  | hung (s : State)
  | fault (f : Fault)
  | refused (r : Refusal)
deriving DecidableEq, Repr

/-- What a host does with its `i`-th poll (R124): stop at an error, ready at `Bool(0)`, else `again`. -/
def afterPoll (i : Nat) (again : State → SeqResult) : CallResult → SeqResult
  | .answered (.err e) s => .err e s
  | .answered (.bool false) s => .ready i s
  | .answered (.bool true) s => again s
  | .answered r s => .value r s
  | .hung s => .hung s
  | .fault f => .fault f
  | .refused r => .refused r

/-- `wait_ready` from its `i`-th poll on, with `bound` polls left (R124). -/
def waitReadyFrom (i : Nat) : Nat → State → SeqResult
  | 0, s => .stillBusy s
  | bound + 1, s => afterPoll i (waitReadyFrom (i + 1) bound) (call .isBusy s)

/-- `wait_ready(bound)` (R124). -/
def waitReady (bound : Nat) (s : State) : SeqResult := waitReadyFrom 1 bound s

/-- The last line of R125: the reading, or its error. -/
def readLast (q : Instr) (s : State) : SeqResult :=
  match call q s with
  | .answered (.err e) s' => .err e s'
  | .answered r s' => .value r s'
  | .hung s' => .hung s'
  | .fault f => .fault f
  | .refused r => .refused r

/-- `measure_and_read_light(bound)` and its two companions, by the query `q` of the last line (R125). -/
def measureAndRead (q : Instr) (bound : Nat) (s : State) : SeqResult :=
  match call .triggerMeasurement s with
  | .answered (.err e) s' => .err e s'
  | .answered _ s' =>
    match waitReady bound s' with
    | .ready _ s2 => readLast q s2
    | .stillBusy s2 => .stillBusy s2
    | .err e s2 => .err e s2
    | .value r s2 => .value r s2
    | .hung s2 => .hung s2
    | .fault f => .fault f
    | .refused r => .refused r
  | .hung s' => .hung s'
  | .fault f => .fault f
  | .refused r => .refused r

/-- `measure_and_read_light(bound)` (R125). -/
def measureAndReadLight (bound : Nat) (s : State) : SeqResult := measureAndRead .readLight bound s

/-- The host makes the calls one after another; the responses are in the last state. DESIGN CHOICE (log 18): it goes on after
a response `Err(e)`, one of the policies that are the caller's (R139), and where a call gets no response it ends in the state
that call hangs in. -/
def callAll : List Instr → State → Result
  | [], s => .next s
  | i :: is, s =>
    match call i s with
    | .answered _ s' => callAll is s'
    | .hung s' => .next s'
    | .fault f => .fault f
    | .refused r => .refused r

/-- The start-up sequence R153 gives, up to the trigger: bind, reset the sensor, learn the version, trigger. Only the first
is required by the engine. -/
def startUp (address : Byte) : List Instr := [.new address, .reset, .readVersion, .triggerMeasurement]

/-- Start-up at the manufacturer default address (R6, R80 e): only the host knows it (P2). -/
def startUpDefault : List Instr := startUp (BitVec.setWidth 8 Config.defaultAddr)

end Sys2Proof.Machine
end

