-- ==== Sys2Proof/Machine/Frames.lean ====
section
/-! DEFINITION. The bus encoding read from outside (30_encoding R60 to R63, R67): the four frame formats, and the decoding
of a frame, or of a line of the history, back to an operation. The engine never uses it. -/

namespace Sys2Proof.Machine

/-- The four frame formats (R60). -/
inductive Format where
  | w1
  | w2
  | q1
  | q2
deriving DecidableEq, Repr

/-- The format of a transaction, by its primitive and its lengths (R60, R61, R62, R63). -/
def frameFormat : Transaction → Option Format
  | .write _ [_] => some .w1
  | .write _ [_, _] => some .w2
  | .write _ _ => none
  | .writeRead _ [_] n => if n = 1 then some .q1 else if n = 2 then some .q2 else none
  | .writeRead _ _ _ => none

/-- The bus address of a transaction. -/
def txnAddr : Transaction → Byte
  | .write a _ => a
  | .writeRead a _ _ => a

/-- Decoding one bus frame back to an operation, by R67's table; `none` for anything that is not a frame of this engine.
The frame [0x06] decodes to `reset`: the bus alone cannot tell it from the second frame of `set_address`. The frame
[0x01, x] is the first frame of `set_address(x)`. -/
def busDecode : Transaction → Option Instr
  | .write _ [b] =>
    if b = 0x06#8 then some .reset else if b = 0x03#8 then some .triggerMeasurement else none
  | .write _ [b, x] => if b = 0x01#8 then some (.setAddress x) else none
  | .write _ _ => none
  | .writeRead _ [b] n =>
    if n = 1 then
      if b = 0x09#8 then some .isBusy else if b = 0x07#8 then some .readVersion else none
    else if n = 2 then
      if b = 0x05#8 then some .readTemperature
      else if b = 0x00#8 then some .readCapacitance
      else if b = 0x04#8 then some .readLight
      else none
    else none
  | .writeRead _ _ _ => none

/-- `e` is the second frame of a `set_address` whose first frame is `prev`: `prev` is an Ok-answered [0x01, x] to the same
address, issued by the same operation (R67). The answer is the operand x. -/
def secondFrameOf (prev e : Entry) : Option Byte :=
  match prev.txn, prev.answer, e.txn with
  | .write a [b, x], .ok [], .write a' [c] =>
    if b = 0x01#8 ∧ c = 0x06#8 ∧ a = a' ∧ prev.op = e.op then some x else none
  | _, _, _ => none

/-- The operation that issued line `k` of a history, told by the frames and the recorded operation boundaries (R67). -/
def operationOf (h : List Entry) (k : Nat) : Option Instr :=
  match h[k]? with
  | none => none
  | some e =>
    match k with
    | 0 => busDecode e.txn
    | j + 1 =>
      match h[j]? with
      | none => busDecode e.txn
      | some prev =>
        match secondFrameOf prev e with
        | some x => some (.setAddress x)
        | none => busDecode e.txn

/-- The frames and answers of operation number `j`, in order. -/
def entriesOf (h : List Entry) (j : Nat) : List (Transaction × Answer) :=
  (h.filter (fun e => decide (e.op = j))).map (fun e => (e.txn, e.answer))

end Sys2Proof.Machine
end

