-- ==== Sys2Proof/Machine/SensorContract.lean ====
section
/-! DEFINITION. The sensor's bus-visible contract (20_memory R50 to R55, 43_polling_contract R123), as relations that a claim
may take as a premise. The sensor is environment: nothing here is engine state, and the engine's step uses none of it. What
R50 to R55 and R123 say of the sensor is required; what they leave open (R49, R74, R152, R156, U3, U5, U6, U12, U13, C4) is
left open. The few points the spec does not force are marked where they stand, and in log 19. -/

namespace Sys2Proof.Machine

/-- The sensor's hidden state (R22): the address it answers at, the pending new address, whether it is busy, its results and
its firmware version. `known` is the model's own record (log 19): readiness and results go as R123 says, from a delivered trigger
on, or from the end of a measurement on, until something happens whose effect on them the spec leaves open (`sensorSamples` is
apart: temperature and capacitance may be refreshed all the while, C4). -/
structure Sensor where
  addr : Byte
  armed : Option Byte
  busy : Bool
  known : Bool
  light : Half
  temp : Half
  cap : Half
  version : Byte
deriving DecidableEq, Repr

/-- The results a sensor holds are the same. -/
def sameResults (x y : Sensor) : Prop := y.light = x.light ∧ y.temp = x.temp ∧ y.cap = x.cap

/-- No reset cycle: the sensor still answers at its address, since "the device only accepts the new address after a reset
cycle", and a pending address stays pending for "the following" reset (R50, R53, R161). DEDUCED (log 19): the rules say so of
the time between the address write and its reset, and the model of every time without a reset. Whether an address can become
pending in another way, and whether the version byte stays (R55 does not say), is left open. -/
def noResetCycle (x y : Sensor) : Prop := y.addr = x.addr ∧ (x.armed.isSome = true → y.armed = x.armed)

/-- Readiness and results stay as R51 and R123 say: a busy sensor is busy and keeps its previous results until it settles, a
settled one is ready and keeps its new results. -/
def readinessKept (x y : Sensor) : Prop := y.busy = x.busy ∧ sameResults x y ∧ y.known = true

/-- The address after a delivered [0x06] (R53, R152): the pending one where there is one, else the same. A pending address
above 127 is "not stated" (R53, U12), and the sensor then answers anywhere. -/
def addressAfterReset (x y : Sensor) : Prop :=
  match x.armed with
  | none => y.addr = x.addr
  | some a => legalOperand a = true → y.addr = a

/-- A delivered [0x03] (R51, R54, R123): an idle sensor is busy now and holds its previous results. What it does to a sensor
that is busy already is open (U6). -/
def triggerEffect (x y : Sensor) : Prop :=
  noResetCycle x y ∧ (x.busy = false → y.busy = true ∧ sameResults x y ∧ y.known = true)

/-- A delivered [0x01, a] (R53): the sensor still answers where it did, and `a` is pending. Of a > 127 nothing is stated (R53,
U12), nor of what the write does to readiness and results (R49, U6): both are open. -/
def armEffect (a : Byte) (x y : Sensor) : Prop := legalOperand a = true → y.addr = x.addr ∧ y.armed = some a

/-- The effect of a delivered write of one of the engine's three frames. After [0x06] the address is known and "nothing more"
(R152, U13). About any other bytes `sensorAllows` does not ask. -/
def writeEffect (x y : Sensor) : List Byte → Prop
  | [b] => (b = 0x06#8 ∧ addressAfterReset x y) ∨ (b = 0x03#8 ∧ triggerEffect x y)
  | [b, a] => b = 0x01#8 ∧ armEffect a x y
  | _ => False

/-- What a failed write did (R44, U5): the frame was not seen, or it was; and where it was the reset after an address write,
the sensor answers anywhere (U12). -/
def failedWriteEffect (x y : Sensor) (data : List Byte) : Prop :=
  y = x ∨ writeEffect x y data ∨ (data = [0x06#8] ∧ x.armed.isSome = true)

/-- The effect of a query: none that R50 to R55 and R123 speak of. Where no measurement stands behind the results they are a
draw (R51), and nothing is said of a query's effect on them or on readiness (R49): that is open. -/
def queryEffect (x y : Sensor) : Prop := noResetCycle x y ∧ (x.known = true → readinessKept x y)

/-- The bytes a delivered query returns: BUSY nonzero exactly while busy (R52), VERSION the version byte (R55), the three
results as latched, high byte first (R39, R51). -/
def queryBytes (x : Sensor) (data : List Byte) (n : Nat) (bytes : List Byte) : Prop :=
  match data, bytes with
  | [b], [r0] => (b = 0x09#8 ∧ n = 1 ∧ (r0 ≠ 0x00#8 ↔ x.busy = true)) ∨ (b = 0x07#8 ∧ n = 1 ∧ r0 = x.version)
  | [b], [r0, r1] =>
    n = 2 ∧ ((b = 0x05#8 ∧ combine r0 r1 = x.temp) ∨ (b = 0x00#8 ∧ combine r0 r1 = x.cap) ∨
      (b = 0x04#8 ∧ combine r0 r1 = x.light))
  | _, _ => False

/-- The transaction `t` may be answered `a`, leaving the sensor `y`. At another address the outcome is the transport's (R50),
and the sensor is as it was (DEDUCED, log 19). A frame that is none of the engine's, with a reserved register id say, has no
meaning: nothing is required of its answer, Ok or Err, nor of the sensor after it (R74, U3, N5). -/
def sensorAllows (x : Sensor) (t : Transaction) (a : Answer) (y : Sensor) : Prop :=
  if txnAddr t ≠ x.addr then y = x
  else if busDecode t = none then True
  else
    match t with
    | .write _ data =>
      match a with
      | .ok bytes => bytes = [] ∧ writeEffect x y data
      | .err _ => failedWriteEffect x y data
    | .writeRead _ data n =>
      queryEffect x y ∧
        match a with
        | .ok bytes => queryBytes x data n bytes
        | .err _ => True

/-- A measurement settles, at a time no rule fixes (R54, R123): the sensor is no longer busy, and from now on its results are
those of that measurement. Which of them changed is open (C4). -/
def sensorSettles (x y : Sensor) : Prop :=
  x.busy = true ∧ y.busy = false ∧ y.known = true ∧ noResetCycle x y

/-- Temperature and capacitance are refreshed with no trigger and no settling: a model "must not assume" that they need one
(R54, C4). So they may change at any time, busy or not, and light may not. -/
def sensorSamples (x y : Sensor) : Prop := { x with temp := y.temp, cap := y.cap } = y

/-- The sensor reboots for reasons of its own (R156): it may answer at another address, and nothing else of it is stated (U12,
N16). Of the model's record, nothing is known any more. -/
def sensorReboots (_x y : Sensor) : Prop := y.known = false

/-- What the sensor does by itself, at times no rule fixes: between two transactions any number of these moves may happen
(R35). A claim about what a read returns takes them all into account. -/
def sensorMoves (x y : Sensor) : Prop := sensorSettles x y ∨ sensorSamples x y ∨ sensorReboots x y

end Sys2Proof.Machine
end

