-- ==== Sys2Proof/Machine/PollingLoop.lean ====
section
/-! DEFINITION. The host's polling loop with no bound (43_polling_contract R126, 70_reset_and_hazards R160): a possible infinite
execution, and the fairness premise that excludes it. The state holds finitely many coming answers, so the loop takes its
answers, one for each poll and without end, as an argument (log 27). It is the loop of a host that stops at an `Err(e)`, which is
DESIGN CHOICE (log 28): R127, R100(c) and R139 leave it to the host whether it polls again. -/

namespace Sys2Proof.Machine

/-- The transport gives the answer `d` next. -/
def State.supply (d : Draw) (s : State) : State := { s with transport := d :: s.transport }

/-- The loop from its `i`-th poll on (the first is poll 0), seen after at most `fuel` more polls: poll until `Bool(0)`, the
transport answering poll `i` with `answers i`. `stillBusy` says that the loop goes on. DESIGN CHOICE (log 28): the first `Err(e)` ends this
loop, as `wait_ready`'s own choice is (R124); the spec leaves the policy of an unbounded loop to the host (R127, R139). -/
def pollLoopFrom (answers : Nat → Draw) (i : Nat) : Nat → State → SeqResult
  | 0, s => .stillBusy s
  | fuel + 1, s => afterPoll (i + 1) (pollLoopFrom answers (i + 1) fuel) (call .isBusy (s.supply (answers i)))

/-- The loop, seen after at most `fuel` polls. -/
def pollLoop (answers : Nat → Draw) (fuel : Nat) (s : State) : SeqResult := pollLoopFrom answers 0 fuel s

/-- The hang of R126 and U11: however long the loop is watched, it goes on. Each poll completes. -/
def pollsForever (answers : Nat → Draw) (s : State) : Prop := ∀ fuel, ∃ t, pollLoop answers fuel s = .stillBusy t

/-- The loop ends: at some poll it is ready, or a poll fails. That a failed poll ends it is DESIGN CHOICE (log 28). -/
def pollingEnds (answers : Nat → Draw) (s : State) : Prop :=
  ∃ fuel t, (∃ i, pollLoop answers fuel s = .ready i t) ∨ (∃ e, pollLoop answers fuel s = .err e t)

/-- Any number of the sensor's own moves, one after another (R35, R54). -/
inductive SensorEvolves : Sensor → Sensor → Prop where
  | refl (x : Sensor) : SensorEvolves x x
  | move {x y z : Sensor} (first : SensorEvolves x y) (last : sensorMoves y z) : SensorEvolves x z

/-- The answers are those of one sensor that stays at address `a`, and is in state `sensors i` at poll `i`: the contract allows
each, and between two polls it makes moves of its own. -/
def polledSensor (a : Byte) (answers : Nat → Draw) (sensors : Nat → Sensor) : Prop :=
  ∀ i, (sensors i).addr = a ∧ ∃ after,
    sensorAllows (sensors i) (.writeRead a [0x09#8] 1) (drawAnswer 1 (answers i)) after ∧
      SensorEvolves after (sensors (i + 1))

/-- The fairness premise of R126, "that the sensor settles": a busy sensor is at some later poll not busy. -/
def sensorSettlesFairly (sensors : Nat → Sensor) : Prop := ∀ i, ∃ j, i ≤ j ∧ (sensors j).busy = false

end Sys2Proof.Machine
end

