-- ==== Sys2Proof/Machine/Readings.lean ====
section
/-! DEFINITION. What a response means to the host: the port packing (30_encoding R72), the decoded physical value as an
exact rational (42_read_queries R113), a float of it where one is wanted (R114), and the display of the version byte
(20_memory R55, 42_read_queries R103). -/

namespace Sys2Proof.Machine

/-- The response as a port (R72). A value that the rule says has no meaning is `none` (log 24). -/
structure ResponsePort where
  rspOk : Bool
  rspData : Option Half
  rspErr : Option ErrT
deriving DecidableEq, Repr

/-- The port packing of a response (R72): zero-extended for `Bool` and `Byte`, the raw pattern for `S16` and `U16`. -/
def responsePort : Response → ResponsePort
  | .done => ⟨true, none, none⟩
  | .bool b => ⟨true, some (if b then 1#16 else 0#16), none⟩
  | .byte v => ⟨true, some (BitVec.setWidth 16 v), none⟩
  | .s16 v => ⟨true, some v, none⟩
  | .u16 v => ⟨true, some v, none⟩
  | .err e => ⟨false, none, some e⟩

/-- The decoded physical value of a reading: tenths for temperature (signed, R112, R113) and light (unsigned, R109, R111,
R113), a plain count for capacitance (R107); `none` where there is no reading (log 17). -/
def decodedValue (op : Op) (r : Response) : Option Rat :=
  match r with
  | .done => none
  | .bool _ => none
  | .byte _ => none
  | .err _ => none
  | .s16 v => if op = .readTemperature then some ((sint16 v : Rat) / 10) else none
  | .u16 v =>
    if op = .readLight then some ((uint16 v : Rat) / 10)
    else if op = .readCapacitance then some (uint16 v : Rat)
    else none

/-- A binary float: (-1)^neg * mant * 2^(16 - shift). -/
structure ScaledFloat where
  neg : Bool
  mant : Nat
  shift : Nat
deriving DecidableEq, Repr

/-- `a / b` rounded to the nearest integer, ties to even (R114). -/
def roundHalfEven (a b : Nat) : Nat :=
  if 2 * (a % b) < b then a / b
  else if b < 2 * (a % b) then a / b + 1
  else if a / b % 2 = 0 then a / b
  else a / b + 1

/-- The least shift, from `k` on, at which the integer part of `mag / 10`, times 2^(shift - 16), has all `p` bits. -/
def floatShift (p mag : Nat) : Nat → Nat → Nat
  | 0, k => k
  | fuel + 1, k => if 655360 * 2 ^ (p - 1) ≤ mag * 2 ^ k then k else floatShift p mag fuel (k + 1)

/-- `n / 10` in the format `fmt`: the nearest value, ties to even (R114; log 17). -/
def scaledFloat (fmt : FloatFmt) (n : Int) : ScaledFloat :=
  if n = 0 then ⟨false, 0, 0⟩
  else
    let k := floatShift fmt.sigBits n.natAbs (fmt.sigBits + 20) 0
    ⟨decide (n < 0), roundHalfEven (n.natAbs * 2 ^ k) 655360, k⟩

/-- The version a version byte stands for, major and minor, its two nibbles as decimal digits ("0x26 = version 2.6"): the host's
display, no part of the engine (R55, R103). Of a byte with a nibble above 9 the spec says "Meaning: none given; the host
decides" (U14), and there is none here. -/
def versionNumber (v : Byte) : Option (Nat × Nat) :=
  if v.toNat / 16 ≤ 9 ∧ v.toNat % 16 ≤ 9 then some (v.toNat / 16, v.toNat % 16) else none

/-- The major number of a version byte, its high nibble, where the byte has a meaning (R55, R103, U14). -/
def versionMajor (v : Byte) : Option Nat := (versionNumber v).map Prod.fst

/-- The minor number of a version byte, its low nibble, where the byte has a meaning (R55, R103, U14). -/
def versionMinor (v : Byte) : Option Nat := (versionNumber v).map Prod.snd

end Sys2Proof.Machine
end

