-- ==== Sys2Proof/Machine/CallSpec.lean ====
section
/-! DEFINITION. An operation as the source describes it: one blocking call that the host makes and that returns
(20_memory R46, 10_state R15), from the operation table of 30_encoding R66, the outcome table of 41_write_commands R94 and
the decoding rules of 42_read_queries. It is written apart from the meanings, which take one step at a time; that the two
agree is a statement. -/

namespace Sys2Proof.Machine

/-- A call that has returned: its transactions with their answers in order, its response, DEV_ADDR after it, and the
answers the transport still has to give. -/
structure Call where
  entries : List (Transaction × Answer)
  response : Response
  devAddr : Byte
  rest : List Draw
deriving DecidableEq, Repr

/-- A call with one transaction `t`: the bytes `bs` are delivered and `r` answers the host; on an error, the error. -/
def callOne (a : Byte) (t : Transaction) (bs : Byte → Byte → List Byte) (r : Byte → Byte → Response)
    (ds : List Draw) : Option Call :=
  match ds with
  | [] => none
  | .err e :: rest => some ⟨[(t, .err e)], .err e, a, rest⟩
  | .ok r0 r1 :: rest => some ⟨[(t, .ok (bs r0 r1))], r r0 r1, a, rest⟩

/-- `set_address(x)` as a call: the three rows of R94's outcome table (R95, R97). -/
def callSetAddress (x a : Byte) (ds : List Draw) : Option Call :=
  match ds with
  | [] => none
  | .err e1 :: rest => some ⟨[(.write a [0x01#8, x], .err e1)], .err e1, a, rest⟩
  | .ok _ _ :: ds' =>
    match ds' with
    | [] => none
    | .err e2 :: rest =>
      some ⟨[(.write a [0x01#8, x], .ok []), (.write a [0x06#8], .err e2)], .err e2, a, rest⟩
    | .ok _ _ :: rest =>
      some ⟨[(.write a [0x01#8, x], .ok []), (.write a [0x06#8], .ok [])], .done, x, rest⟩

/-- The call of `i` with DEV_ADDR `a` and the transport's coming answers `ds`; `none` where the transport never gives the
answer the call waits for (D21, U9). -/
def callSpec (i : Instr) (a : Byte) (ds : List Draw) : Option Call :=
  match i with
  | .new x => some ⟨[], .done, x, ds⟩
  | .release => some ⟨[], .done, a, ds⟩
  | .reset => callOne a (.write a [0x06#8]) (fun _ _ => []) (fun _ _ => .done) ds
  | .triggerMeasurement => callOne a (.write a [0x03#8]) (fun _ _ => []) (fun _ _ => .done) ds
  | .setAddress x => callSetAddress x a ds
  | .isBusy =>
    callOne a (.writeRead a [0x09#8] 1) (fun r0 _ => [r0]) (fun r0 _ => .bool (decide (r0.toNat ≠ 0))) ds
  | .readVersion => callOne a (.writeRead a [0x07#8] 1) (fun r0 _ => [r0]) (fun r0 _ => .byte r0) ds
  | .readTemperature =>
    callOne a (.writeRead a [0x05#8] 2) (fun r0 r1 => [r0, r1])
      (fun r0 r1 => .s16 (BitVec.ofNat 16 (r0.toNat * 256 + r1.toNat))) ds
  | .readCapacitance =>
    callOne a (.writeRead a [0x00#8] 2) (fun r0 r1 => [r0, r1])
      (fun r0 r1 => .u16 (BitVec.ofNat 16 (r0.toNat * 256 + r1.toNat))) ds
  | .readLight =>
    callOne a (.writeRead a [0x04#8] 2) (fun r0 r1 => [r0, r1])
      (fun r0 r1 => .u16 (BitVec.ofNat 16 (r0.toNat * 256 + r1.toNat))) ds

end Sys2Proof.Machine
end

