-- ==== Sys2Proof/Safety.lean ====
section
/-! DEFINITION. What counts as a safe run: the invariant of the machine, the host's duties (70_reset_and_hazards R154, R158,
R159), and the relations that the statements about what a run can depend on are in terms of. -/

namespace Sys2Proof.Machine

/-- PHASE and OP_LATCH name a transaction whenever one is outstanding (R14). -/
abbrev State.sequencerLegal (s : State) : Prop :=
  (s.phase = .xfer1 → busOp s.opLatch = true) ∧ (s.phase = .xfer2 → s.opLatch = .setAddress)

/-- No transaction is outstanding at an address above 127 (R12, U1). -/
abbrev State.addressLegal (s : State) : Prop := s.phase.inTransfer = true → legalAddr s.devAddr = true

/-- Commands and responses strictly alternate (R73): one response is owed exactly while a transaction is outstanding, and it
is owed to the command in progress. -/
abbrev State.alternates (s : State) : Prop :=
  s.accepted.length = s.responses.length + (if s.phase.inTransfer then 1 else 0) ∧
    (s.phase.inTransfer = true → s.accepted.getLast? = some s.inProgress)

/-- A successful answer to a transaction that reads `n` bytes has exactly `n` bytes (R33). -/
def answerFits (n : Nat) : Answer → Bool
  | .ok bytes => decide (bytes.length = n)
  | .err _ => true

/-- A line of the history of an engine that has accepted `n` commands: one of the engine's frames (R60, R67), to a legal
address (R12), answered with as many bytes as it reads (R33), for one of the accepted commands. -/
abbrev entryLegal (n : Nat) (e : Entry) : Prop :=
  e.op < n ∧ legalAddr (txnAddr e.txn) = true ∧ (busDecode e.txn).isSome = true ∧
    answerFits (readLen e.txn) e.answer = true

/-- Every line of the history is legal, and in XFER2 the last one is the address write that succeeded (R14, R94). -/
abbrev State.historyLegal (s : State) : Prop :=
  (∀ e ∈ s.history, entryLegal s.accepted.length e) ∧
    (s.phase = .xfer2 →
      s.history.getLast? = some ⟨s.responses.length, .write s.devAddr [0x01#8, s.argLatch], .ok []⟩)

/-- The invariant of the machine. -/
abbrev State.Inv (s : State) : Prop :=
  s.sequencerLegal ∧ s.addressLegal ∧ s.alternates ∧ s.historyLegal

/-- Every response is the one that its operation's frames, as the history has them, call for; and the operation in progress
has the frames its PHASE says (R14, R72, R94, R116). -/
def State.explained (s : State) : Prop :=
  (∀ j r, s.responses[j]? = some r →
    ∃ i a ds c, s.accepted[j]? = some i ∧ callSpec i a ds = some c ∧ entriesOf s.history j = c.entries ∧
      r = c.response) ∧
  entriesOf s.history s.responses.length =
    if s.phase = .xfer2 then [(.write s.devAddr [0x01#8, s.argLatch], .ok [])] else []

/-- Every line of the history decodes back to the operation that issued it (R67). -/
def State.historyDecodes (s : State) : Prop :=
  ∀ k e, s.history[k]? = some e → operationOf s.history k = s.accepted[e.op]?

/-- An answer with its error named anew. -/
def mapAnswer (f : ErrT → ErrT) : Answer → Answer
  | .ok bytes => .ok bytes
  | .err e => .err (f e)

/-- A draw with its error named anew. -/
def mapDraw (f : ErrT → ErrT) : Draw → Draw
  | .ok r0 r1 => .ok r0 r1
  | .err e => .err (f e)

/-- A response with its error named anew. -/
def mapResponse (f : ErrT → ErrT) : Response → Response
  | .done => .done
  | .bool b => .bool b
  | .byte v => .byte v
  | .s16 v => .s16 v
  | .u16 v => .u16 v
  | .err e => .err (f e)

/-- A state with every error in it named anew (R130: the engine never looks at one). -/
def State.mapErr (f : ErrT → ErrT) (s : State) : State :=
  { s with
    transport := s.transport.map (mapDraw f)
    history := s.history.map (fun e => { e with answer := mapAnswer f e.answer })
    responses := s.responses.map (mapResponse f) }

/-- The same for the result of a step. -/
def mapResult (f : ErrT → ErrT) : Result → Result
  | .next s => .next (s.mapErr f)
  | .fault r => .fault r
  | .refused r => .refused r

/-- A line of the history without its bus address. -/
def eraseAddr (e : Entry) : Entry :=
  match e.txn with
  | .write _ data => { e with txn := .write 0 data }
  | .writeRead _ data n => { e with txn := .writeRead 0 data n }

/-- Two states a host cannot tell apart by responses (R13): they differ in DEV_ADDR and in the addresses in the history only,
and both addresses are legal, or neither is. -/
def State.sameButAddr (s t : State) : Prop :=
  legalAddr s.devAddr = legalAddr t.devAddr ∧ s.history.map eraseAddr = t.history.map eraseAddr ∧
    { s with devAddr := t.devAddr, history := t.history } = t

/-- Two states that differ at most in latches no rule reads (R16): OP_LATCH in UNBOUND and IDLE, and ARG_LATCH where it is
not the operand of the operation in progress. -/
def State.sameButDeadLatches (s t : State) : Prop :=
  { s with opLatch := t.opLatch, argLatch := t.argLatch } = t ∧
    (s.phase.inTransfer = true → s.opLatch = t.opLatch ∧ (s.opLatch = .setAddress → s.argLatch = t.argLatch))

/-- Two results are of one kind, and related where they are next states. -/
def resultsRelated (R : State → State → Prop) : Result → Result → Prop
  | .next s, .next t => R s t
  | .fault f, .fault g => f = g
  | .refused q, .refused r => q = r
  | .next _, .fault _ => False
  | .next _, .refused _ => False
  | .fault _, .next _ => False
  | .fault _, .refused _ => False
  | .refused _, .next _ => False
  | .refused _, .fault _ => False

/-- What a host does, as a claim about its premises sees it: a call with its response, or a wait with the delay provider. -/
inductive HostEvent where
  | performed (i : Instr) (r : Response)
  | waited (ms : Nat)
deriving DecidableEq, Repr

/-- Whether a result read now is current (R121, R158): not known to be, measuring (so long waited), or current. -/
inductive Freshness where
  | stale
  | measuring (ms : Nat)
  | current
deriving DecidableEq, Repr

/-- What one event does to freshness (R121, R158, R159; log 25): a delivered trigger starts a measurement; a wait of at least
T_SETTLE in all, or a poll that answers not busy, ends it; a reset of the sensor, a failed trigger and a release leave the
results unknown (U5, U13). A delivered trigger while a measurement is still under way is taken as any other, and the count begins
again: DESIGN CHOICE (log 25), since R121 asks no more of a host after a trigger that returned `Done`, while what such a
trigger does to readiness and results is open (U6, N14). -/
def freshnessAfter (f : Freshness) : HostEvent → Freshness
  | .waited ms =>
    match f with
    | .stale => .stale
    | .measuring w => if Config.settleMillis ≤ w + ms then .current else .measuring (w + ms)
    | .current => .current
  | .performed i r =>
    match i with
    | .triggerMeasurement => if r = .done then .measuring 0 else .stale
    | .isBusy =>
      match f with
      | .stale => .stale
      | .measuring w => if r = .bool false then .current else .measuring w
      | .current => .current
    | .new _ => .stale
    | .release => .stale
    | .reset => .stale
    | .setAddress _ => .stale
    | .readVersion => f
    | .readTemperature => f
    | .readCapacitance => f
    | .readLight => f

/-- The event is no result read, or a read of a current result, or a read that failed (R154 c). -/
def readsFresh (f : Freshness) : HostEvent → Bool
  | .waited _ => true
  | .performed i r =>
    match i, r with
    | .readTemperature, .s16 _ => decide (f = .current)
    | .readCapacitance, .u16 _ => decide (f = .current)
    | .readLight, .u16 _ => decide (f = .current)
    | _, _ => true

/-- Every result the host takes is a current one (R154 c, R158). -/
def freshReads : Freshness → List HostEvent → Bool
  | _, [] => true
  | f, e :: es => readsFresh f e && freshReads (freshnessAfter f e) es

/-- The operand of the event is a legal address (R154 a). -/
def legalEvent : HostEvent → Bool
  | .waited _ => true
  | .performed i _ => i.wellFormed

/-- The host meets its duties (R154): legal addresses and current results. That nobody else uses the transport (R154 b, U4)
is so by construction. -/
def safeRun (es : List HostEvent) : Bool := es.all legalEvent && freshReads .stale es

end Sys2Proof.Machine
end

