-- ==== Sys2Proof/Certificates/Slice0/Obligations.lean ====
section
/-! DEFINITION. The statements for the provers. Each docstring names the rules of spec/ it formalises. -/

namespace Sys2Proof.Statements

open Sys2Proof Sys2Proof.Machine

/-- The whole of one operation with one transaction, step by step. `i` is the instruction, `x` its operation, `code` its
host code, `t` its frame to a given address, `bytes` the bytes a successful answer delivers and `r` the response to them.
In order: (1) every command word with that code is `i`, whatever cmd_arg is; (2) in IDLE, with a legal DEV_ADDR, it is
accepted and its transaction issued: PHASE, OP_LATCH and ARG_LATCH (which holds some value: the operation has no operand)
change and nothing else of the engine; (3) on `Ok` it answers the host and PHASE is IDLE again; (4) on `Err(e)` it answers
`Err(e)` and PHASE is IDLE again; (5) with no answer yet it waits; (6) offered in UNBOUND, in XFER2, or in XFER1 while another
operation is in progress, it is not accepted and has no effect. -/
def oneTransactionOp (i : Instr) (x : Op) (code : BitVec 4) (t : Byte → Transaction)
    (bytes : Byte → Byte → List Byte) (r : Byte → Byte → Response) : Prop :=
  (∀ arg : Byte, decode (cmdWord code arg) = .instr i) ∧
  (∀ s : State, s.phase = .idle → s.devAddr.toNat ≤ 127 →
    ∃ arg : Byte, exec i s =
      .next { s with phase := .xfer1, opLatch := x, argLatch := arg, accepted := s.accepted ++ [i] }) ∧
  (∀ (s : State) (r0 r1 : Byte) (ds : List Draw),
    s.phase = .xfer1 → s.opLatch = x → s.transport = .ok r0 r1 :: ds →
    exec i s = .next { s with
      phase := .idle
      transport := ds
      history := s.history ++ [⟨s.responses.length, t s.devAddr, .ok (bytes r0 r1)⟩]
      responses := s.responses ++ [r r0 r1] }) ∧
  (∀ (s : State) (e : ErrT) (ds : List Draw),
    s.phase = .xfer1 → s.opLatch = x → s.transport = .err e :: ds →
    exec i s = .next { s with
      phase := .idle
      transport := ds
      history := s.history ++ [⟨s.responses.length, t s.devAddr, .err e⟩]
      responses := s.responses ++ [.err e] }) ∧
  (∀ s : State, s.phase = .xfer1 → s.opLatch = x → s.transport = [] → exec i s = .next s) ∧
  (∀ s : State, s.phase = .unbound ∨ s.phase = .xfer2 ∨ (s.phase = .xfer1 ∧ s.opLatch ≠ x) →
    exec i s = .next s)

/-- The state a host sequence ends in, where it ends in one. -/
def seqState : SeqResult → Option State
  | .ready _ s => some s
  | .stillBusy s => some s
  | .err _ s => some s
  | .value _ s => some s
  | .hung s => some s
  | .fault _ => none
  | .refused _ => none

/-- The transactions issued so far: those answered, and the one that is outstanding where there is one (R22, R35, log 15). -/
def issuedCount (s : State) : Nat := s.history.length + (if s.outstanding.isSome then 1 else 0)

/-- The transport's answers to a run of polls, by the two bytes each draw carries (log 2; a poll reads the first). -/
def pollAnswers (polls : List (Byte × Byte)) : List Draw := polls.map (fun p => .ok p.1 p.2)

/-- The waiting time a list of host events adds up to. -/
def totalWait : List HostEvent → Nat
  | [] => 0
  | .waited ms :: es => ms + totalWait es
  | .performed _ _ :: es => totalWait es

end Sys2Proof.Statements

open Sys2Proof Sys2Proof.Machine Sys2Proof.Statements

/-- R70: the command word names an operation and its operand: decoding an encoded operation gives it back, for every
operation and every operand. -/
def Obligations.CommandWordRoundTrip : Prop :=
  ∀ i : Instr, decode (encode i) = .instr i

/-- R71: cmd_arg is taken whole, all 8 bits, where the operation has an operand, and has no effect where it has none: for
every word that decodes to an operation, the word with another cmd_arg decodes to the same operation, with that cmd_arg as
its operand if it has one. -/
def Obligations.CommandArgWholeOrIgnored : Prop :=
  ∀ (w : CmdWord) (i : Instr) (arg : Byte), decode w = .instr i →
    decode (cmdWord (cmdOp w) arg) = .instr (match i with
      | .new _ => .new arg
      | .setAddress _ => .setAddress arg
      | .release => .release
      | .reset => .reset
      | .triggerMeasurement => .triggerMeasurement
      | .isBusy => .isBusy
      | .readVersion => .readVersion
      | .readTemperature => .readTemperature
      | .readCapacitance => .readCapacitance
      | .readLight => .readLight) ∧
    (∀ a, i = .new a ∨ i = .setAddress a → a.toNat = w.toNat % 256)

/-- R75, U2: the codes 2, 8, A, B, C and D, and no others, are reserved, and a step that finds one offered in IDLE is
refused, by its code. -/
def Obligations.ReservedCodesRefused : Prop :=
  (∀ w : CmdWord, (∃ c, decode w = .reserved c) ↔ w.toNat / 256 ∈ [0x2, 0x8, 0xA, 0xB, 0xC, 0xD]) ∧
  (∀ (s : State) (w : CmdWord) (ws : List CmdWord),
    s.phase = .idle → s.hostPort = w :: ws → w.toNat / 256 ∈ [0x2, 0x8, 0xA, 0xB, 0xC, 0xD] →
    step s = .refused (.reservedCode (BitVec.ofNat 4 (w.toNat / 256))))

/-- R70: for the eight bus operations the host code is the low four bits of the register id of the operation's first frame;
`new` is 0xE and `release` is 0xF. -/
def Obligations.HostCodeIsLowNibbleOfRegisterId : Prop :=
  (∀ s : State, s.phase = .xfer1 → busOp s.opLatch = true →
    ∃ (a id : Byte) (rest : List Byte) (n : Nat),
      (s.outstanding = some (.write a (id :: rest)) ∨ s.outstanding = some (.writeRead a (id :: rest) n)) ∧
      (encode s.inProgress).toNat / 256 = id.toNat % 16) ∧
  (∀ a : Byte, (encode (.new a)).toNat = 0xE00 + a.toNat) ∧ (encode .release).toNat / 256 = 0xF

/-- The command words of 95_test_vectors section 2 decode to the operations they stand for. -/
def Obligations.VectorWordsDecode : Prop :=
  decode 0x600#12 = .instr .reset ∧ decode 0x65A#12 = .instr .reset ∧ decode 0x300#12 = .instr .triggerMeasurement ∧
  decode 0x121#12 = .instr (.setAddress 0x21#8) ∧ decode 0x900#12 = .instr .isBusy ∧
  decode 0x700#12 = .instr .readVersion ∧ decode 0x500#12 = .instr .readTemperature ∧
  decode 0x000#12 = .instr .readCapacitance ∧ decode 0x400#12 = .instr .readLight ∧
  decode 0xE20#12 = .instr (.new 0x20#8) ∧ decode 0xF00#12 = .instr .release

/-- R60 to R63, R66, R67: whatever transaction is outstanding is one of the four formats, goes to DEV_ADDR, and decodes back
to the operation in progress; in XFER2 it is the frame [0x06], which the bus alone cannot tell from `reset`. -/
def Obligations.OutstandingFrameDecodes : Prop :=
  ∀ (s : State) (t : Transaction), s.outstanding = some t →
    txnAddr t = s.devAddr ∧ (frameFormat t).isSome = true ∧
    (s.phase = .xfer1 → busDecode t = some s.inProgress) ∧
    (s.phase = .xfer2 → t = .write s.devAddr [0x06#8] ∧ busDecode t = some .reset)

/-- R23, R150: what power-on reset leaves, as far as the spec gives it: UNBOUND, history empty, no response pending, no
transaction outstanding. The values of DEV_ADDR and the latches are the model's choice (log 4, log 5) and are not stated. -/
def Obligations.PowerOnResetState : Prop :=
  State.reset.phase = .unbound ∧ State.reset.history = [] ∧ State.reset.responses = [] ∧
  State.reset.accepted = [] ∧ State.reset.outstanding = none

/-- R151, R15: while nothing is offered, the engine does nothing by itself, after reset or between operations. -/
def Obligations.NothingHappensByItself : Prop :=
  ∀ s : State, s.phase = .unbound ∨ s.phase = .idle → s.hostPort = [] → step s = .next s

/-- R14, R15, R16, R35: a step runs the decoded instruction. In UNBOUND and IDLE, a word at the port whose operation PHASE
admits is taken from the port and run; in XFER1 and XFER2 the operation in OP_LATCH and ARG_LATCH goes on, and the port is
not looked at. -/
def Obligations.StepRunsDecodedInstruction : Prop :=
  (∀ (s : State) (w : CmdWord) (ws : List CmdWord) (a : Byte), s.phase = .unbound → s.hostPort = w :: ws →
    decode w = .instr (.new a) → step s = exec (.new a) { s with hostPort := ws }) ∧
  (∀ (s : State) (w : CmdWord) (ws : List CmdWord) (i : Instr), s.phase = .idle → s.hostPort = w :: ws →
    decode w = .instr i → (∀ a, i ≠ .new a) → step s = exec i { s with hostPort := ws }) ∧
  (∀ s : State, s.phase = .xfer1 → busOp s.opLatch = true → step s = exec (latchedInstr s.opLatch s.argLatch) s) ∧
  (∀ s : State, s.phase = .xfer2 → s.opLatch = .setAddress → step s = exec (.setAddress s.argLatch) s)

/-- log 13 (the model's own convention, over R14 and R70): a table word placed by `withFetchWord` is what the very next step
runs, in the PHASE that admits it. -/
def Obligations.PlacedWordRuns : Prop :=
  ∀ (s : State) (nbits w : Nat) (i : Instr), decodeTableWord nbits w = some i →
    step (s.withFetchWord nbits w) =
      exec i { s with phase := match i with
        | .new _ => .unbound
        | .release => .idle
        | .reset => .idle
        | .triggerMeasurement => .idle
        | .setAddress _ => .idle
        | .isBusy => .idle
        | .readVersion => .idle
        | .readTemperature => .idle
        | .readCapacitance => .idle
        | .readLight => .idle }

/-- R14, R15: a command offered when PHASE does not admit it is not accepted and has no effect: anything but `new` in
UNBOUND (whatever the word), `new` in IDLE; and while a transaction is outstanding nothing at the port has an effect: the
step is the same but for the port, which is left alone. -/
def Obligations.UnadmittedCommandHasNoEffect : Prop :=
  (∀ (s : State) (w : CmdWord) (ws : List CmdWord), s.phase = .unbound → s.hostPort = w :: ws →
    w.toNat / 256 ≠ 0xE → step s = .next s) ∧
  (∀ (s : State) (w : CmdWord) (ws : List CmdWord), s.phase = .idle → s.hostPort = w :: ws →
    w.toNat / 256 = 0xE → step s = .next s) ∧
  (∀ (s : State) (ws : List CmdWord), s.phase = .xfer1 ∨ s.phase = .xfer2 →
    match step s with
    | .next t => t.hostPort = s.hostPort ∧ step { s with hostPort := ws } = .next { t with hostPort := ws }
    | .fault f => step { s with hostPort := ws } = .fault f
    | .refused r => step { s with hostPort := ws } = .refused r)

/-- R80: `new(address)`: in UNBOUND, DEV_ADDR takes all 8 bits of the address, not validated, PHASE becomes IDLE, and the
response is `Done`; no transaction; nothing else of the engine changes but the two latches, which acceptance loads (R16;
ARG_LATCH holds some value). In every other PHASE it is not accepted. -/
def Obligations.NewBindsTheEngine : Prop :=
  (∀ address : Byte, decode (cmdWord 0xE#4 address) = .instr (.new address)) ∧
  (∀ (address : Byte) (s : State), s.phase = .unbound →
    ∃ arg : Byte, exec (.new address) s = .next { s with
      devAddr := address
      phase := .idle
      opLatch := .new
      argLatch := arg
      accepted := s.accepted ++ [.new address]
      responses := s.responses ++ [.done] }) ∧
  (∀ (address : Byte) (s : State), s.phase ≠ .unbound → exec (.new address) s = .next s)

/-- R82: `release()`: in IDLE, PHASE becomes UNBOUND and the response is `Done`; no transaction, no error. In every other PHASE
it is not accepted. The latches are loaded at acceptance (R16), and what DEV_ADDR then holds is not stated: "a model may drop its
value". -/
def Obligations.ReleaseUnbindsTheEngine : Prop :=
  (∀ arg : Byte, decode (cmdWord 0xF#4 arg) = .instr .release) ∧
  (∀ s : State, s.phase = .idle →
    ∃ address arg : Byte, exec .release s = .next { s with
      devAddr := address
      phase := .unbound
      opLatch := .release
      argLatch := arg
      accepted := s.accepted ++ [.release]
      responses := s.responses ++ [.done] }) ∧
  (∀ s : State, s.phase ≠ .idle → exec .release s = .next s)

/-- R83: `new` and `release` are invisible to the transport and to the sensor: whatever the PHASE, they end in a next state
with the transport and the history as they were, and they issue nothing: what is outstanding is as it was. -/
def Obligations.LifecycleInvisibleToTransport : Prop :=
  ∀ (i : Instr) (s : State), i = .release ∨ (∃ a, i = .new a) →
    ∃ t, exec i s = .next t ∧ t.transport = s.transport ∧ t.history = s.history ∧ t.outstanding = s.outstanding

/-- The frame of `new` and `release`, as the model has it: ARG_LATCH keeps its value (log 7), `release` leaves DEV_ADDR alone
(log 9), neither takes a further word from the port, OP_LATCH and the responses change only where the command is accepted,
and a response is given exactly then. -/
def Obligations.LifecycleFrame : Prop :=
  ∀ (i : Instr) (s t : State), i = .release ∨ (∃ a, i = .new a) → exec i s = .next t →
    t.argLatch = s.argLatch ∧ t.hostPort = s.hostPort ∧ (i = .release → t.devAddr = s.devAddr) ∧
    (t = s ∨ (t.accepted = s.accepted ++ [i] ∧ t.responses = s.responses ++ [.done]))

/-- R90: `reset()`: one write of [0x06] to DEV_ADDR, then `Done`, or `Err(e)`; DEV_ADDR is not changed. -/
def Obligations.ResetOperation : Prop :=
  oneTransactionOp .reset .reset 0x6#4 (fun a => .write a [0x06#8]) (fun _ _ => []) (fun _ _ => .done)

/-- R92: `trigger_measurement()`: one write of [0x03] to DEV_ADDR, then `Done`, or `Err(e)`. -/
def Obligations.TriggerMeasurementOperation : Prop :=
  oneTransactionOp .triggerMeasurement .triggerMeasurement 0x3#4 (fun a => .write a [0x03#8]) (fun _ _ => [])
    (fun _ _ => .done)

/-- R94: `set_address(x)`, its steps in order: encoding; acceptance and the first transaction; the first answer `Ok` (the reset
write is issued, DEV_ADDR still old); the first answer `Err` (the reset is not issued, R97); the second answer `Ok` (DEV_ADDR
takes the operand, `Done`); the second answer `Err` (DEV_ADDR not updated); no answer yet; not accepted in UNBOUND. Both
transactions carry the old DEV_ADDR. -/
def Obligations.SetAddressOperation : Prop :=
  (∀ x : Byte, decode (cmdWord 0x1#4 x) = .instr (.setAddress x)) ∧
  (∀ (x : Byte) (s : State), s.phase = .idle → s.devAddr.toNat ≤ 127 →
    exec (.setAddress x) s = .next { s with
      phase := .xfer1, opLatch := .setAddress, argLatch := x, accepted := s.accepted ++ [.setAddress x] }) ∧
  (∀ (x r0 r1 : Byte) (s : State) (ds : List Draw), s.phase = .xfer1 → s.opLatch = .setAddress → s.argLatch = x →
    s.devAddr.toNat ≤ 127 → s.transport = .ok r0 r1 :: ds →
    exec (.setAddress x) s = .next { s with
      phase := .xfer2
      transport := ds
      history := s.history ++ [⟨s.responses.length, .write s.devAddr [0x01#8, x], .ok []⟩] }) ∧
  (∀ (x : Byte) (e : ErrT) (s : State) (ds : List Draw), s.phase = .xfer1 → s.opLatch = .setAddress → s.argLatch = x →
    s.transport = .err e :: ds →
    exec (.setAddress x) s = .next { s with
      phase := .idle
      transport := ds
      history := s.history ++ [⟨s.responses.length, .write s.devAddr [0x01#8, x], .err e⟩]
      responses := s.responses ++ [.err e] }) ∧
  (∀ (x r0 r1 : Byte) (s : State) (ds : List Draw), s.phase = .xfer2 → s.opLatch = .setAddress → s.argLatch = x →
    s.transport = .ok r0 r1 :: ds →
    exec (.setAddress x) s = .next { s with
      devAddr := x
      phase := .idle
      transport := ds
      history := s.history ++ [⟨s.responses.length, .write s.devAddr [0x06#8], .ok []⟩]
      responses := s.responses ++ [.done] }) ∧
  (∀ (x : Byte) (e : ErrT) (s : State) (ds : List Draw), s.phase = .xfer2 → s.opLatch = .setAddress → s.argLatch = x →
    s.transport = .err e :: ds →
    exec (.setAddress x) s = .next { s with
      phase := .idle
      transport := ds
      history := s.history ++ [⟨s.responses.length, .write s.devAddr [0x06#8], .err e⟩]
      responses := s.responses ++ [.err e] }) ∧
  (∀ (x : Byte) (s : State), s.phase = .xfer1 ∨ s.phase = .xfer2 → s.transport = [] →
    exec (.setAddress x) s = .next s) ∧
  (∀ (x : Byte) (s : State), s.phase = .unbound ∨ (s.phase = .xfer1 ∧ s.opLatch ≠ .setAddress) →
    exec (.setAddress x) s = .next s)

/-- R100, R101: `is_busy()`: one read of 1 byte from [0x09]; the response is `Bool(b)` with b = 1 if and only if the byte is not
zero, or `Err(e)`. -/
def Obligations.IsBusyOperation : Prop :=
  oneTransactionOp .isBusy .isBusy 0x9#4 (fun a => .writeRead a [0x09#8] 1) (fun r0 _ => [r0])
    (fun r0 _ => .bool (decide (r0.toNat ≠ 0)))

/-- R102: `read_version()`: one read of 1 byte from [0x07]; the response is `Byte` of the byte unchanged, or `Err(e)`. -/
def Obligations.ReadVersionOperation : Prop :=
  oneTransactionOp .readVersion .readVersion 0x7#4 (fun a => .writeRead a [0x07#8] 1) (fun r0 _ => [r0])
    (fun r0 _ => .byte r0)

/-- R104: `read_temperature()`: one read of 2 bytes from [0x05]; the response is `S16` of the bytes with the first received
as the high one, or `Err(e)`; the decoded temperature is the two's-complement integer of those bytes over 10. -/
def Obligations.ReadTemperatureOperation : Prop :=
  oneTransactionOp .readTemperature .readTemperature 0x5#4 (fun a => .writeRead a [0x05#8] 2) (fun r0 r1 => [r0, r1])
    (fun r0 r1 => .s16 (BitVec.ofNat 16 (r0.toNat * 256 + r1.toNat))) ∧
  (∀ r0 r1 : Byte, decodedValue .readTemperature (.s16 (BitVec.ofNat 16 (r0.toNat * 256 + r1.toNat))) =
    some (((r0.toNat : Rat) * 256 + r1.toNat - (if r0.toNat < 128 then 0 else 65536)) / 10))

/-- R106, R107: `read_capacitance()`: one read of 2 bytes from [0x00]; the response is `U16`, big-endian, or `Err(e)`; the
value is the unsigned integer of those bytes, not scaled. -/
def Obligations.ReadCapacitanceOperation : Prop :=
  oneTransactionOp .readCapacitance .readCapacitance 0x0#4 (fun a => .writeRead a [0x00#8] 2) (fun r0 r1 => [r0, r1])
    (fun r0 r1 => .u16 (BitVec.ofNat 16 (r0.toNat * 256 + r1.toNat))) ∧
  (∀ r0 r1 : Byte, decodedValue .readCapacitance (.u16 (BitVec.ofNat 16 (r0.toNat * 256 + r1.toNat))) =
    some ((r0.toNat : Rat) * 256 + r1.toNat))

/-- R108: `read_light()`: one read of 2 bytes from [0x04]; the response is `U16`, big-endian, or `Err(e)`; the decoded light is
the unsigned integer of those bytes over 10. -/
def Obligations.ReadLightOperation : Prop :=
  oneTransactionOp .readLight .readLight 0x4#4 (fun a => .writeRead a [0x04#8] 2) (fun r0 r1 => [r0, r1])
    (fun r0 r1 => .u16 (BitVec.ofNat 16 (r0.toNat * 256 + r1.toNat))) ∧
  (∀ r0 r1 : Byte, decodedValue .readLight (.u16 (BitVec.ofNat 16 (r0.toNat * 256 + r1.toNat))) =
    some (((r0.toNat : Rat) * 256 + r1.toNat) / 10))

/-- R116, R90, R92: the frame of the seven operations other than `new`, `release` and `set_address`. Where one ends in a next
state: DEV_ADDR, ARG_LATCH and the port are unchanged, OP_LATCH too unless it is accepted; the history is unchanged or one
line longer, a write for the two commands and a write-then-read for the queries, to DEV_ADDR; and it is one line longer
exactly when a response is given. -/
def Obligations.SingleTransactionFrame : Prop :=
  ∀ (i : Instr) (s t : State),
    i ∈ [Instr.reset, .triggerMeasurement, .isBusy, .readVersion, .readTemperature, .readCapacitance, .readLight] →
    exec i s = .next t →
    t.devAddr = s.devAddr ∧ t.argLatch = s.argLatch ∧ t.hostPort = s.hostPort ∧
    (t.accepted = s.accepted → t.opLatch = s.opLatch) ∧
    ((t.history = s.history ∧ t.responses = s.responses ∧ t.transport = s.transport) ∨
      ∃ (txn : Transaction) (ans : Answer) (r : Response) (d : Draw),
        t.history = s.history ++ [⟨s.responses.length, txn, ans⟩] ∧ t.responses = s.responses ++ [r] ∧
        s.transport = d :: t.transport ∧ txnAddr txn = s.devAddr ∧ t.phase = .idle ∧
        ((∃ data, txn = .write s.devAddr data) ↔ (i = .reset ∨ i = .triggerMeasurement)))

/-- R12, R165, U1: DEV_ADDR above 127 is stored by `new` and not used: a bus operation offered in IDLE is refused, and so is
the second transaction of `set_address`; `release` still runs. -/
def Obligations.OutOfRangeAddressRefused : Prop :=
  (∀ (i : Instr) (s : State), s.phase = .idle → 127 < s.devAddr.toNat → busOp (opOf i) = true →
    exec i s = .refused .addressOutOfRange) ∧
  (∀ (x r0 r1 : Byte) (s : State) (ds : List Draw), s.phase = .xfer1 → s.opLatch = .setAddress → s.argLatch = x →
    127 < s.devAddr.toNat → s.transport = .ok r0 r1 :: ds →
    exec (.setAddress x) s = .refused .addressOutOfRange) ∧
  (∀ (a : Byte) (s : State), s.phase = .unbound → 127 < a.toNat →
    ∃ t, exec (.new a) s = .next t ∧ t.devAddr = a ∧ t.phase = .idle ∧
      ∃ u, exec .release t = .next u ∧ u.phase = .unbound ∧ u.history = s.history)

/-- R64, R31: the eight register ids, their values, directions, payload and result lengths, as the table has them; no two ids
share a value. -/
def Obligations.RegisterIdTable : Prop :=
  regIdAll.map (fun r => (regIdCode r, regIdDirection r, regIdPayloadLen r, regIdResultLen r)) =
    [(0x00#8, .writeThenRead, 0, 2), (0x01#8, .writeOnly, 1, 0), (0x03#8, .writeOnly, 0, 0),
      (0x04#8, .writeThenRead, 0, 2), (0x05#8, .writeThenRead, 0, 2), (0x06#8, .writeOnly, 0, 0),
      (0x07#8, .writeThenRead, 0, 1), (0x09#8, .writeThenRead, 0, 1)] ∧
  (∀ r : RegId, r ∈ regIdAll) ∧ (∀ r q : RegId, regIdCode r = regIdCode q → r = q)

/-- R72: the response as a port: rsp_ok is 0 for `Err` only, which alone has rsp_err; rsp_data is zero-extended for `Bool` and
`Byte`, the raw pattern for `S16` and `U16`, and of no meaning for `Done` and `Err`. -/
def Obligations.ResponsePortPacking : Prop :=
  (∀ r : Response, (responsePort r).rspOk = false ↔ ∃ e, r = .err e) ∧
  (∀ (r : Response) (e : ErrT), (responsePort r).rspErr = some e ↔ r = .err e) ∧
  (∀ (r : Response) (v : Half), (responsePort r).rspData = some v ↔
    (∃ b : Bool, r = .bool b ∧ v.toNat = (if b then 1 else 0)) ∨ (∃ x : Byte, r = .byte x ∧ v.toNat = x.toNat) ∨
      r = .s16 v ∨ r = .u16 v)

/-- R110: `combine(hi, lo) = hi*256 + lo`, and it is a bijection between byte pairs and 16-bit values. -/
def Obligations.CombineIsBigEndianBijection : Prop :=
  (∀ hi lo : Byte, (combine hi lo).toNat = hi.toNat * 256 + lo.toNat) ∧
  (∀ v : Half, ∃ hi lo, combine hi lo = v ∧ ∀ hi' lo', combine hi' lo' = v → hi' = hi ∧ lo' = lo)

/-- R111, R112: the unsigned reading is hi*256 + lo; the signed reading is that when hi < 0x80 and that less 65536 when
hi >= 0x80, in -32768 to 32767, and no value has a second encoding. -/
def Obligations.SignedAndUnsignedReadings : Prop :=
  (∀ hi lo : Byte, uint16 (combine hi lo) = hi.toNat * 256 + lo.toNat) ∧
  (∀ hi lo : Byte, hi.toNat < 0x80 → sint16 (combine hi lo) = (hi.toNat * 256 + lo.toNat : Nat)) ∧
  (∀ hi lo : Byte, 0x80 ≤ hi.toNat → sint16 (combine hi lo) = ((hi.toNat * 256 + lo.toNat : Nat) : Int) - 65536) ∧
  (∀ v : Half, -32768 ≤ sint16 v ∧ sint16 v ≤ 32767) ∧
  (∀ v w : Half, sint16 v = sint16 w → v = w)

/-- R113, R107, R109: the decoded value of a temperature is its signed integer over 10, of a light reading its unsigned integer
over 10, both exact; a capacitance is not scaled. -/
def Obligations.DecodedValuesAreTenths : Prop :=
  (∀ v : Half, ∃ q : Rat, decodedValue .readTemperature (.s16 v) = some q ∧ q * 10 = (sint16 v : Rat)) ∧
  (∀ v : Half, ∃ q : Rat, decodedValue .readLight (.u16 v) = some q ∧ q * 10 = (v.toNat : Rat)) ∧
  (∀ v : Half, decodedValue .readCapacitance (.u16 v) = some (v.toNat : Rat))

/-- R114: a float result is the value of its format nearest to n/10, ties to even: for every significand of at least one bit
and every nonzero n a reading can have, the significand m is in the format, the value m * 2^(16 - k) is within half a unit of
|n|/10 (stated without fractions: |10 * 2^16 * m - |n| * 2^k| is at most half of 10 * 2^16), an exact tie has m even, and the
sign is n's.
The exact value lies in the binade of the result (from 2^(p-1) to 2^p units), where the format's spacing is the unit, so that no
value of a lower or a higher binade is nearer. Zero is the float zero. The range of n is that of R112 and R111. The
representation by m and k is the model's (log 17). -/
def Obligations.FloatResultIsNearest : Prop :=
  (∀ p : Nat, (scaledFloat ⟨p⟩ 0).neg = false ∧ (scaledFloat ⟨p⟩ 0).mant = 0) ∧
  ∀ (p : Nat) (n : Int), 1 ≤ p → n ≠ 0 → -32768 ≤ n → n ≤ 65535 →
    let f := scaledFloat ⟨p⟩ n
    f.neg = decide (n < 0) ∧ 2 ^ (p - 1) ≤ f.mant ∧ f.mant ≤ 2 ^ p ∧
    655360 * 2 ^ (p - 1) ≤ n.natAbs * 2 ^ f.shift ∧ n.natAbs * 2 ^ f.shift < 655360 * 2 ^ p ∧
    2 * (655360 * f.mant) ≤ 2 * (n.natAbs * 2 ^ f.shift) + 655360 ∧
    2 * (n.natAbs * 2 ^ f.shift) ≤ 2 * (655360 * f.mant) + 655360 ∧
    (2 * (655360 * f.mant) = 2 * (n.natAbs * 2 ^ f.shift) + 655360 ∨
      2 * (n.natAbs * 2 ^ f.shift) = 2 * (655360 * f.mant) + 655360 → f.mant % 2 = 0)

/-- R130, R131, R132: the transport error. Whatever transaction is outstanding, when the transport answers it with `Err(e)` the
step responds `Err(e)` with that e, PHASE becomes IDLE, the pair joins the history, and nothing else changes. -/
def Obligations.TransportErrorEntry : Prop :=
  ∀ (s : State) (t : Transaction) (e : ErrT) (ds : List Draw), s.outstanding = some t →
    (s.phase = .xfer2 → s.opLatch = .setAddress) → s.transport = .err e :: ds →
    step s = .next { s with
      phase := .idle
      transport := ds
      history := s.history ++ [⟨s.responses.length, t, .err e⟩]
      responses := s.responses ++ [.err e] }

/-- R131, R134, R138: an `Err(e)` response comes from the transport's `Err(e)` and from nothing else, and after it DEV_ADDR is
as it was and PHASE is IDLE. -/
def Obligations.ErrorOnlyFromTransport : Prop :=
  ∀ (s t : State) (e : ErrT), step s = .next t → t.responses = s.responses ++ [.err e] →
    (∃ ds, s.transport = .err e :: ds) ∧ (s.phase = .xfer1 ∨ s.phase = .xfer2) ∧ t.phase = .idle ∧
      t.devAddr = s.devAddr

/-- R134, R136: a bus operation that ends in `Err(e)` leaves the engine as it was before the command was accepted, so that the
error colours nothing later: only the inputs it consumed, the records it made and latches that no rule reads differ. -/
def Obligations.FailedOperationLeavesEngineAsBefore : Prop :=
  ∀ (s : State) (w : CmdWord) (ws : List CmdWord) (i : Instr) (c : Call) (e : ErrT),
    s.phase = .idle → s.devAddr.toNat ≤ 127 → s.hostPort = w :: ws → decode w = .instr i → busOp (opOf i) = true →
    callSpec i s.devAddr s.transport = some c → c.response = .err e →
    ∃ (k : Nat) (t : State), k ≤ 3 ∧ Host.Core.run Sys2Proof.core k s = .next t ∧
      t.responses = s.responses ++ [.err e] ∧
      State.sameButDeadLatches
        { t with
          hostPort := s.hostPort
          transport := s.transport
          history := s.history
          accepted := s.accepted
          responses := s.responses } s

/-- R130, P1: the engine does not inspect, classify, translate, wrap or number an error: naming every error of a state anew, by
any function, and then stepping is the same as stepping and then naming anew. -/
def Obligations.ErrorsNeverInspected : Prop :=
  ∀ (f : ErrT → ErrT) (s : State), step (s.mapErr f) = mapResult f (step s)

/-- D21, U9: with a transaction outstanding and no answer, the engine stays as it is; it has no timeout. -/
def Obligations.SilentTransportIsWaitedFor : Prop :=
  ∀ (s : State) (t : Transaction) (k : Nat), s.outstanding = some t → (s.phase = .xfer2 → s.opLatch = .setAddress) →
    s.transport = [] → Host.Core.run Sys2Proof.core k s = .next s

/-- The reset state meets the machine's invariant. -/
def Obligations.InvariantAtReset : Prop :=
  State.reset.Inv ∧ State.reset.explained ∧ State.reset.historyDecodes

/-- R12, R14, R33, R60, R67, R73: every step keeps the invariant: PHASE and OP_LATCH name a transaction whenever one is
outstanding, none is outstanding at an address above 127, commands and responses strictly alternate, every line of the
history is a frame of this engine to a legal address with exactly the bytes it reads, and XFER2 follows a successful address
write. -/
def Obligations.StepKeepsInvariant : Prop :=
  ∀ s t : State, s.Inv → step s = .next t → t.Inv

/-- log 12, R75, U1, U2: in a state that meets the invariant no step faults, and a refusal is one of the two the spec asks for:
a reserved code offered in IDLE, or a bus operation accepted with DEV_ADDR above 127. -/
def Obligations.OnlyTheRefusalsOfTheSpec : Prop :=
  ∀ s : State, s.Inv → (∀ f, step s ≠ .fault f) ∧
    (∀ r, step s = .refused r → s.phase = .idle ∧ ∃ w ws, s.hostPort = w :: ws ∧
      ((∃ c, r = .reservedCode c ∧ decode w = .reserved c) ∨
        (r = .addressOutOfRange ∧ 127 < s.devAddr.toNat ∧ ∃ i, decode w = .instr i ∧ busOp (opOf i) = true)))

/-- R72, R67, R94, R116: every response is the one its operation's own transactions call for, by the operation table, and no
operation has any other transaction: every step keeps this. -/
def Obligations.ResponsesExplainedByHistory : Prop :=
  ∀ s t : State, s.Inv → s.explained → step s = .next t → t.explained

/-- R67: the history decodes back to the operations that issued it, with the second frame of `set_address` told from a `reset`
of the host's by the recorded operation boundaries: every step keeps this. -/
def Obligations.HistoryDecodesToOperations : Prop :=
  ∀ s t : State, s.Inv → s.explained → s.historyDecodes → step s = .next t → t.historyDecodes

/-- R11: DEV_ADDR is written at exactly two places: `new` in UNBOUND loads it with its address, and `set_address` with its
operand at the step that consumes the successful answer to its second transaction and responds `Done`. No other step
changes it. -/
def Obligations.DeviceAddressWrittenAtTwoPlaces : Prop :=
  ∀ s t : State, step s = .next t →
    t.devAddr = s.devAddr ∨
    (s.phase = .unbound ∧ t.phase = .idle ∧ t.accepted = s.accepted ++ [.new t.devAddr]) ∨
    (s.phase = .xfer2 ∧ s.opLatch = .setAddress ∧ t.devAddr = s.argLatch ∧ t.phase = .idle ∧
      t.responses = s.responses ++ [.done] ∧ ∃ r0 r1, s.transport = .ok r0 r1 :: t.transport)

/-- R14: PHASE moves only as the rule says: UNBOUND to IDLE by `new`, IDLE to UNBOUND by `release`, IDLE to XFER1 by a bus
operation, XFER1 to IDLE, XFER1 to XFER2 for `set_address` alone, XFER2 to IDLE. -/
def Obligations.PhaseMovesAsStated : Prop :=
  ∀ s t : State, step s = .next t →
    t.phase = s.phase ∨
    (s.phase = .unbound ∧ t.phase = .idle ∧ ∃ a, t.accepted = s.accepted ++ [.new a]) ∨
    (s.phase = .idle ∧ t.phase = .unbound ∧ t.accepted = s.accepted ++ [.release]) ∨
    (s.phase = .idle ∧ t.phase = .xfer1 ∧ ∃ i, busOp (opOf i) = true ∧ t.accepted = s.accepted ++ [i]) ∨
    (s.phase = .xfer1 ∧ t.phase = .idle ∧ t.accepted = s.accepted) ∨
    (s.phase = .xfer1 ∧ t.phase = .xfer2 ∧ s.opLatch = .setAddress ∧ t.accepted = s.accepted) ∨
    (s.phase = .xfer2 ∧ t.phase = .idle ∧ t.accepted = s.accepted)

/-- R10, R22, R35, R37, R45: a step consumes at most one answer, and then adds exactly one line to the history: the outstanding
transaction, to DEV_ADDR as it stands, with that answer: its error, or its bytes in the order received, exactly as many as the
transaction reads. Otherwise the history and the transport are unchanged. -/
def Obligations.HistoryGrowsByTheAnsweredTransaction : Prop :=
  ∀ s t : State, step s = .next t →
    (t.history = s.history ∧ t.transport = s.transport) ∨
    ∃ (txn : Transaction) (d : Draw) (ans : Answer), s.outstanding = some txn ∧ txnAddr txn = s.devAddr ∧
      s.transport = d :: t.transport ∧ t.history = s.history ++ [⟨s.responses.length, txn, ans⟩] ∧
      (∀ e, d = .err e ↔ ans = .err e) ∧ (∀ bytes, ans = .ok bytes → bytes.length = readLen txn) ∧
      (∀ r0 r1, d = .ok r0 r1 → ans = .ok ([r0, r1].take (readLen txn)))

/-- R46, R66, R94, R116: an operation offered in IDLE with a legal DEV_ADDR runs as one blocking call: after two or three steps
(one for `release`) its transactions are in the history in order, its response is given, DEV_ADDR is what the call leaves, and
the transport has given exactly the answers the call took. That `release` leaves DEV_ADDR as it was is the model's choice (log
9, R11; R82 lets a model drop the value). -/
def Obligations.OperationRunsAsBlockingCall : Prop :=
  ∀ (s : State) (w : CmdWord) (ws : List CmdWord) (i : Instr) (c : Call),
    s.phase = .idle → s.devAddr.toNat ≤ 127 → s.hostPort = w :: ws → decode w = .instr i → (∀ a, i ≠ .new a) →
    callSpec i s.devAddr s.transport = some c →
    ∃ (k : Nat) (t : State), k = 1 + c.entries.length ∧ Host.Core.run Sys2Proof.core k s = .next t ∧
      t.phase = (if i = .release then .unbound else .idle) ∧ t.devAddr = c.devAddr ∧
      t.responses = s.responses ++ [c.response] ∧ t.accepted = s.accepted ++ [i] ∧
      t.history = s.history ++ c.entries.map (fun p => ⟨s.responses.length, p.1, p.2⟩) ∧
      t.transport = c.rest ∧ t.hostPort = ws

/-- R95: after a `set_address(x)` offered in IDLE, at any number of steps before a later operation has responded, DEV_ADDR is
the old value or x, and it is x exactly when the response was `Done`. -/
def Obligations.AddressUpdateIsAtomic : Prop :=
  ∀ (s t : State) (x : Byte) (ws : List CmdWord) (k : Nat),
    s.phase = .idle → s.hostPort = encode (.setAddress x) :: ws →
    Host.Core.run Sys2Proof.core k s = .next t → t.responses.length ≤ s.responses.length + 1 →
    (t.responses = s.responses ∧ t.devAddr = s.devAddr) ∨
    (t.responses = s.responses ++ [.done] ∧ t.devAddr = x) ∨
    (∃ e, t.responses = s.responses ++ [.err e] ∧ t.devAddr = s.devAddr)

/-- R16: the values of OP_LATCH and ARG_LATCH in IDLE and UNBOUND are never read, nor is ARG_LATCH while another operation than
`set_address` is in progress: states that differ in them only step to results that differ in them only. -/
def Obligations.DeadLatchesNeverRead : Prop :=
  ∀ s t : State, s.sameButDeadLatches t → resultsRelated State.sameButDeadLatches (step s) (step t)

/-- R13: the host cannot read DEV_ADDR back: states that differ in DEV_ADDR only (both legal, or neither) step to results that
differ in DEV_ADDR and in the addresses in the history only; every response is the same. -/
def Obligations.ResponsesDoNotRevealAddress : Prop :=
  ∀ s t : State, s.sameButAddr t → resultsRelated State.sameButAddr (step s) (step t)

/-- R124, R126: `wait_ready(bound)` from IDLE or UNBOUND issues at most `bound` transactions whatever the sensor does, one that
is never answered among them, and none with bound 0. -/
def Obligations.WaitReadyIssuesAtMostBound : Prop :=
  (∀ (bound : Nat) (s t : State), s.phase.inTransfer = false → seqState (waitReady bound s) = some t →
    issuedCount s ≤ issuedCount t ∧ issuedCount t ≤ issuedCount s + bound) ∧
  (∀ s : State, waitReady 0 s = .stillBusy s)

/-- R124, R127, R128: what `wait_ready(bound)` returns. If it returns Ready(i) from IDLE with nothing else offered: 1 ≤ i ≤
bound; it issued exactly i polls of [0x09] to DEV_ADDR, the first i - 1 answered with a nonzero byte and the last with 0x00. And
from IDLE with a legal DEV_ADDR, where the transport answers n polls with nonzero bytes: it returns Ready(n + 1) if the next
answer is 0x00 and n < bound, Err(e) if the next answer is Err(e) and n < bound, and StillBusy if n = bound; in each case it has
taken exactly those answers and PHASE is IDLE. -/
def Obligations.WaitReadyReportsFirstZeroByte : Prop :=
  (∀ (bound i : Nat) (s t : State), s.phase = .idle → s.hostPort = [] → waitReady bound s = .ready i t →
    1 ≤ i ∧ i ≤ bound ∧ t.phase = .idle ∧ t.devAddr = s.devAddr ∧
    ∃ bytes : List Byte, bytes.length + 1 = i ∧ (∀ b ∈ bytes, b ≠ 0x00#8) ∧
      t.history.map (fun e => (e.txn, e.answer)) =
        s.history.map (fun e => (e.txn, e.answer)) ++
          (bytes ++ [0x00#8]).map (fun b => (Transaction.writeRead s.devAddr [0x09#8] 1, Answer.ok [b]))) ∧
  (∀ (bound : Nat) (s : State) (polls : List (Byte × Byte)) (r1 : Byte) (ds : List Draw),
    s.phase = .idle → s.devAddr.toNat ≤ 127 → (∀ p ∈ polls, p.1 ≠ 0x00#8) → polls.length < bound →
    s.transport = pollAnswers polls ++ .ok 0x00#8 r1 :: ds →
    ∃ t, waitReady bound s = .ready (polls.length + 1) t ∧ t.phase = .idle ∧ t.transport = ds) ∧
  (∀ (bound : Nat) (s : State) (polls : List (Byte × Byte)) (e : ErrT) (ds : List Draw),
    s.phase = .idle → s.devAddr.toNat ≤ 127 → (∀ p ∈ polls, p.1 ≠ 0x00#8) → polls.length < bound →
    s.transport = pollAnswers polls ++ .err e :: ds →
    ∃ t, waitReady bound s = .err e t ∧ t.phase = .idle ∧ t.transport = ds) ∧
  (∀ (s : State) (polls : List (Byte × Byte)) (ds : List Draw),
    s.phase = .idle → s.devAddr.toNat ≤ 127 → (∀ p ∈ polls, p.1 ≠ 0x00#8) →
    s.transport = pollAnswers polls ++ ds →
    ∃ t, waitReady polls.length s = .stillBusy t ∧ t.phase = .idle ∧ t.transport = ds)

/-- R126, R160, U11: the polling loop with no bound may go on for ever. From IDLE with a legal DEV_ADDR it does, whatever the
state, where the transport answers every poll with a nonzero byte: each poll completes, and after n polls the history has n lines
more. And the sensor's contract allows such answers: a sensor at DEV_ADDR that is busy, and has been triggered, may give any
nonzero bytes at all and stay as it is for ever. -/
def Obligations.UnboundedPollingMayHang : Prop :=
  (∀ (answers : Nat → Draw) (s : State), s.phase = .idle → s.devAddr.toNat ≤ 127 →
    (∀ i, ∃ r0 r1, answers i = .ok r0 r1 ∧ r0 ≠ 0x00#8) →
    pollsForever answers s ∧
    ∀ n, ∃ t, pollLoop answers n s = .stillBusy t ∧ t.phase = .idle ∧ t.devAddr = s.devAddr ∧
      t.history.length = s.history.length + n) ∧
  (∀ (answers : Nat → Draw) (x : Sensor), x.busy = true → x.known = true →
    (∀ i, ∃ r0 r1, answers i = .ok r0 r1 ∧ r0 ≠ 0x00#8) → polledSensor x.addr answers (fun _ => x))

/-- R126: with the fairness premise that the sensor settles, the loop ends. From IDLE with a legal DEV_ADDR, where the answers are
those of one sensor at DEV_ADDR as its contract has it, and that sensor does not stay busy for ever, the loop is ready at some
poll, or ends at the transport error of a poll; with no error among the answers it is ready. That the loop ends at an error is the
model's choice (log 28); R127 leaves to the host whether it polls again. -/
def Obligations.PollingEndsWhereTheSensorSettles : Prop :=
  ∀ (answers : Nat → Draw) (sensors : Nat → Sensor) (s : State), s.phase = .idle → s.devAddr.toNat ≤ 127 →
    polledSensor s.devAddr answers sensors → sensorSettlesFairly sensors →
    pollingEnds answers s ∧
    ((∀ i e, answers i ≠ .err e) → ∃ fuel i t, pollLoop answers fuel s = .ready i t ∧ t.phase = .idle)

/-- R125: `measure_and_read_light(bound)` from IDLE, with nothing else offered, issues at most bound + 2 transactions, and a
value it returns is the reading of the last one: the two bytes that [0x04] was answered with, big-endian. And from IDLE with a
legal DEV_ADDR, where the transport answers the trigger with Ok, fewer than bound polls with nonzero bytes, the next with 0x00
and the read with two bytes, it returns that reading. -/
def Obligations.MeasureAndReadLightReturnsLastReading : Prop :=
  (∀ (bound : Nat) (s t : State), s.phase = .idle → s.hostPort = [] →
    seqState (measureAndReadLight bound s) = some t → issuedCount t ≤ issuedCount s + bound + 2) ∧
  (∀ (bound : Nat) (s t : State) (r : Response), s.phase = .idle → s.hostPort = [] →
    measureAndReadLight bound s = .value r t →
    ∃ r0 r1 : Byte, r = .u16 (BitVec.ofNat 16 (r0.toNat * 256 + r1.toNat)) ∧
      (t.history.map (fun e => (e.txn, e.answer))).getLast? =
        some (.writeRead s.devAddr [0x04#8] 2, .ok [r0, r1])) ∧
  (∀ (bound : Nat) (s : State) (polls : List (Byte × Byte)) (a b c r0 r1 : Byte) (ds : List Draw),
    s.phase = .idle → s.devAddr.toNat ≤ 127 → (∀ p ∈ polls, p.1 ≠ 0x00#8) → polls.length < bound →
    s.transport = .ok a b :: (pollAnswers polls ++ .ok 0x00#8 c :: .ok r0 r1 :: ds) →
    ∃ t, measureAndReadLight bound s = .value (.u16 (BitVec.ofNat 16 (r0.toNat * 256 + r1.toNat))) t ∧
      t.phase = .idle ∧ t.transport = ds)

/-- R121, R158, R159, and the model's choice of log 25: a host whose events are safe, and which then takes a light, temperature
or capacitance result as a safe event, has issued a `trigger_measurement()` that returned `Done`, and since then has waited at
least T_SETTLE in all or has had a poll return `Bool(0)`. That separate waits are added up is the model's choice (log 25); the
rules speak of one wait of at least T_SETTLE. -/
def Obligations.FreshReadFollowsTriggerAndSettling : Prop :=
  ∀ (es : List HostEvent) (i : Instr) (r : Response),
    (i = .readLight ∧ ∃ v, r = .u16 v) ∨ (i = .readCapacitance ∧ ∃ v, r = .u16 v) ∨
      (i = .readTemperature ∧ ∃ v, r = .s16 v) →
    safeRun (es ++ [.performed i r]) = true →
    ∃ before after, es = before ++ .performed .triggerMeasurement .done :: after ∧
      (Config.settleMillis ≤ totalWait after ∨ .performed .isBusy (.bool false) ∈ after)
end

