-- ==== Sys2Proof/Laws/Decode.lean ====
section
/-! SUPPORT. The fields of a command word, and what the decoder and the encoder make of them. -/

namespace Sys2Proof

@[simp] theorem cmdOp_cmdWord (op : BitVec 4) (arg : Byte) : cmdOp (cmdWord op arg) = op := by
  unfold cmdOp cmdWord
  exact BitVec.extractLsb'_append_eq_left

@[simp] theorem cmdArg_cmdWord (op : BitVec 4) (arg : Byte) : cmdArg (cmdWord op arg) = arg := by
  unfold cmdArg cmdWord
  exact BitVec.extractLsb'_append_eq_right

theorem cmdOp_toNat (w : CmdWord) : (cmdOp w).toNat = w.toNat / 256 := by
  have := w.isLt
  simp only [cmdOp, BitVec.extractLsb'_toNat, Nat.shiftRight_eq_div_pow]
  omega

theorem cmdArg_toNat (w : CmdWord) : (cmdArg w).toNat = w.toNat % 256 := by
  simp [cmdArg, BitVec.extractLsb'_toNat]

@[simp] theorem cmdOp_encode (i : Instr) : cmdOp (encode i) = hostCode i := cmdOp_cmdWord _ _

@[simp] theorem cmdArg_encode (i : Instr) : cmdArg (encode i) = hostArg i := cmdArg_cmdWord _ _

/-- A word that decodes to an operation has that operation's host code (R70). -/
theorem cmdOp_of_decode {w : CmdWord} {i : Instr} (h : decode w = .instr i) : cmdOp w = hostCode i := by
  unfold decode at h
  apply BitVec.eq_of_toNat_eq
  split at h <;> first | (cases h; simp_all [hostCode]) | cases h

/-- A word that decodes to an operation with an operand carries the operand in cmd_arg (R70, R71). -/
theorem hostArg_of_decode {w : CmdWord} {i : Instr} (h : decode w = .instr i) :
    hostArg i = cmdArg w ∨ hostArg i = 0 := by
  unfold decode at h
  split at h <;> first | (cases h; simp [hostArg]) | cases h

end Sys2Proof
end

