-- ==== Sys2Proof/Laws/Host.lean ====
section
/-! SUPPORT. The small lemmas of the host's polling sequences: what follows each outcome of a poll, and the loop a poll at a
time. -/

namespace Sys2Proof.Machine

@[simp] theorem afterPoll_err (i : Nat) (k : State → SeqResult) (e : ErrT) (s : State) :
    afterPoll i k (.answered (.err e) s) = .err e s := rfl
@[simp] theorem afterPoll_ready (i : Nat) (k : State → SeqResult) (s : State) :
    afterPoll i k (.answered (.bool false) s) = .ready i s := rfl
@[simp] theorem afterPoll_busy (i : Nat) (k : State → SeqResult) (s : State) :
    afterPoll i k (.answered (.bool true) s) = k s := rfl
@[simp] theorem afterPoll_hung (i : Nat) (k : State → SeqResult) (s : State) : afterPoll i k (.hung s) = .hung s := rfl

@[simp] theorem waitReadyFrom_zero (i : Nat) (s : State) : waitReadyFrom i 0 s = .stillBusy s := rfl
theorem waitReadyFrom_succ (i bound : Nat) (s : State) :
    waitReadyFrom i (bound + 1) s = afterPoll i (waitReadyFrom (i + 1) bound) (call .isBusy s) := rfl

@[simp] theorem pollLoopFrom_zero (answers : Nat → Draw) (i : Nat) (s : State) :
    pollLoopFrom answers i 0 s = .stillBusy s := rfl
theorem pollLoopFrom_succ (answers : Nat → Draw) (i fuel : Nat) (s : State) :
    pollLoopFrom answers i (fuel + 1) s =
      afterPoll (i + 1) (pollLoopFrom answers (i + 1) fuel) (call .isBusy (s.supply (answers i))) := rfl

@[simp] theorem supply_phase (d : Draw) (s : State) : (s.supply d).phase = s.phase := rfl
@[simp] theorem supply_devAddr (d : Draw) (s : State) : (s.supply d).devAddr = s.devAddr := rfl
@[simp] theorem supply_history (d : Draw) (s : State) : (s.supply d).history = s.history := rfl
@[simp] theorem supply_responses (d : Draw) (s : State) : (s.supply d).responses = s.responses := rfl
@[simp] theorem supply_hostPort (d : Draw) (s : State) : (s.supply d).hostPort = s.hostPort := rfl
@[simp] theorem supply_transport (d : Draw) (s : State) : (s.supply d).transport = d :: s.transport := rfl

end Sys2Proof.Machine
end

