-- ==== Sys2Proof/Laws/State.lean ====
section
/-! SUPPORT. One lemma per field of State per named update, true by rfl: no later proof unfolds a record update. -/

namespace Sys2Proof.Machine

variable (s : State)

@[simp] theorem State.accept_devAddr (i : Instr) : (s.accept i).devAddr = s.devAddr := rfl
@[simp] theorem State.accept_phase (i : Instr) : (s.accept i).phase = s.phase := rfl
@[simp] theorem State.accept_opLatch (i : Instr) : (s.accept i).opLatch = opOf i := rfl
@[simp] theorem State.accept_argLatch (i : Instr) : (s.accept i).argLatch = s.argLatch := rfl
@[simp] theorem State.accept_hostPort (i : Instr) : (s.accept i).hostPort = s.hostPort := rfl
@[simp] theorem State.accept_transport (i : Instr) : (s.accept i).transport = s.transport := rfl
@[simp] theorem State.accept_history (i : Instr) : (s.accept i).history = s.history := rfl
@[simp] theorem State.accept_accepted (i : Instr) : (s.accept i).accepted = s.accepted ++ [i] := rfl
@[simp] theorem State.accept_responses (i : Instr) : (s.accept i).responses = s.responses := rfl

@[simp] theorem State.emit_devAddr (r : Response) : (s.emit r).devAddr = s.devAddr := rfl
@[simp] theorem State.emit_phase (r : Response) : (s.emit r).phase = s.phase := rfl
@[simp] theorem State.emit_opLatch (r : Response) : (s.emit r).opLatch = s.opLatch := rfl
@[simp] theorem State.emit_argLatch (r : Response) : (s.emit r).argLatch = s.argLatch := rfl
@[simp] theorem State.emit_hostPort (r : Response) : (s.emit r).hostPort = s.hostPort := rfl
@[simp] theorem State.emit_transport (r : Response) : (s.emit r).transport = s.transport := rfl
@[simp] theorem State.emit_history (r : Response) : (s.emit r).history = s.history := rfl
@[simp] theorem State.emit_accepted (r : Response) : (s.emit r).accepted = s.accepted := rfl
@[simp] theorem State.emit_responses (r : Response) : (s.emit r).responses = s.responses ++ [r] := rfl

@[simp] theorem State.respond_devAddr (r : Response) : (s.respond r).devAddr = s.devAddr := rfl
@[simp] theorem State.respond_phase (r : Response) : (s.respond r).phase = .idle := rfl
@[simp] theorem State.respond_opLatch (r : Response) : (s.respond r).opLatch = s.opLatch := rfl
@[simp] theorem State.respond_argLatch (r : Response) : (s.respond r).argLatch = s.argLatch := rfl
@[simp] theorem State.respond_hostPort (r : Response) : (s.respond r).hostPort = s.hostPort := rfl
@[simp] theorem State.respond_transport (r : Response) : (s.respond r).transport = s.transport := rfl
@[simp] theorem State.respond_history (r : Response) : (s.respond r).history = s.history := rfl
@[simp] theorem State.respond_accepted (r : Response) : (s.respond r).accepted = s.accepted := rfl
@[simp] theorem State.respond_responses (r : Response) : (s.respond r).responses = s.responses ++ [r] := rfl

@[simp] theorem State.raiseTransportError_devAddr (e : ErrT) : (s.raiseTransportError e).devAddr = s.devAddr := rfl
@[simp] theorem State.raiseTransportError_phase (e : ErrT) : (s.raiseTransportError e).phase = .idle := rfl
@[simp] theorem State.raiseTransportError_opLatch (e : ErrT) : (s.raiseTransportError e).opLatch = s.opLatch := rfl
@[simp] theorem State.raiseTransportError_argLatch (e : ErrT) : (s.raiseTransportError e).argLatch = s.argLatch := rfl
@[simp] theorem State.raiseTransportError_hostPort (e : ErrT) : (s.raiseTransportError e).hostPort = s.hostPort := rfl
@[simp] theorem State.raiseTransportError_transport (e : ErrT) : (s.raiseTransportError e).transport = s.transport := rfl
@[simp] theorem State.raiseTransportError_history (e : ErrT) : (s.raiseTransportError e).history = s.history := rfl
@[simp] theorem State.raiseTransportError_accepted (e : ErrT) : (s.raiseTransportError e).accepted = s.accepted := rfl
@[simp] theorem State.raiseTransportError_responses (e : ErrT) : (s.raiseTransportError e).responses = s.responses ++ [.err e] := rfl

@[simp] theorem State.record_devAddr (t : Transaction) (d : Draw) (ds : List Draw) : (s.record t d ds).devAddr = s.devAddr := rfl
@[simp] theorem State.record_phase (t : Transaction) (d : Draw) (ds : List Draw) : (s.record t d ds).phase = s.phase := rfl
@[simp] theorem State.record_opLatch (t : Transaction) (d : Draw) (ds : List Draw) : (s.record t d ds).opLatch = s.opLatch := rfl
@[simp] theorem State.record_argLatch (t : Transaction) (d : Draw) (ds : List Draw) : (s.record t d ds).argLatch = s.argLatch := rfl
@[simp] theorem State.record_hostPort (t : Transaction) (d : Draw) (ds : List Draw) : (s.record t d ds).hostPort = s.hostPort := rfl
@[simp] theorem State.record_transport (t : Transaction) (d : Draw) (ds : List Draw) : (s.record t d ds).transport = ds := rfl
@[simp] theorem State.record_history (t : Transaction) (d : Draw) (ds : List Draw) : (s.record t d ds).history = s.history ++ [⟨s.responses.length, t, drawAnswer (readLen t) d⟩] := rfl
@[simp] theorem State.record_accepted (t : Transaction) (d : Draw) (ds : List Draw) : (s.record t d ds).accepted = s.accepted := rfl
@[simp] theorem State.record_responses (t : Transaction) (d : Draw) (ds : List Draw) : (s.record t d ds).responses = s.responses := rfl

@[simp] theorem State.offer_devAddr (i : Instr) : (s.offer i).devAddr = s.devAddr := rfl
@[simp] theorem State.offer_phase (i : Instr) : (s.offer i).phase = s.phase := rfl
@[simp] theorem State.offer_opLatch (i : Instr) : (s.offer i).opLatch = s.opLatch := rfl
@[simp] theorem State.offer_argLatch (i : Instr) : (s.offer i).argLatch = s.argLatch := rfl
@[simp] theorem State.offer_hostPort (i : Instr) : (s.offer i).hostPort = encode i :: s.hostPort := rfl
@[simp] theorem State.offer_transport (i : Instr) : (s.offer i).transport = s.transport := rfl
@[simp] theorem State.offer_history (i : Instr) : (s.offer i).history = s.history := rfl
@[simp] theorem State.offer_accepted (i : Instr) : (s.offer i).accepted = s.accepted := rfl
@[simp] theorem State.offer_responses (i : Instr) : (s.offer i).responses = s.responses := rfl

@[simp] theorem Phase.inTransfer_unbound : Phase.inTransfer .unbound = false := rfl
@[simp] theorem Phase.inTransfer_idle : Phase.inTransfer .idle = false := rfl
@[simp] theorem Phase.inTransfer_xfer1 : Phase.inTransfer .xfer1 = true := rfl
@[simp] theorem Phase.inTransfer_xfer2 : Phase.inTransfer .xfer2 = true := rfl

/-- A transaction is outstanding exactly in XFER1 and XFER2 (R35). -/
theorem Phase.inTransfer_iff (p : Phase) : p.inTransfer = true ↔ p = .xfer1 ∨ p = .xfer2 := by
  cases p <;> simp

end Sys2Proof.Machine
end

