-- ==== Sys2Proof/Laws/Ops.lean ====
section
/-! SUPPORT. One lemma for each shared operation, saying once everything it can do; callers cite it and do not unfold the
operation. -/

namespace Sys2Proof.Machine

@[simp] theorem opOf_latchedInstr (op : Op) (arg : Byte) : opOf (latchedInstr op arg) = op := by
  cases op <;> rfl

/-- OP_LATCH names the operation in progress (R16). -/
@[simp] theorem opOf_inProgress (s : State) : opOf s.inProgress = s.opLatch := opOf_latchedInstr _ _

/-- `issue` gives a next state exactly when DEV_ADDR is legal, and then changes PHASE only. -/
theorem issue_next_iff {p : Phase} {s t : State} :
    issue p s = .next t ↔ legalAddr s.devAddr = true ∧ t = { s with phase := p } := by
  unfold issue
  split <;> rename_i h
  · simp [h, eq_comm (a := t)]
  · simp [h]

/-- `issue` refuses exactly when DEV_ADDR is above 127. -/
theorem issue_refused_iff {p : Phase} {s : State} {r : Refusal} :
    issue p s = .refused r ↔ legalAddr s.devAddr = false ∧ r = .addressOutOfRange := by
  unfold issue
  split <;> rename_i h
  · simp [h]
  · simp [h, eq_comm (a := r)]

theorem issue_of_legal {p : Phase} {s : State} (h : legalAddr s.devAddr = true) :
    issue p s = .next { s with phase := p } := if_pos h

theorem issue_of_illegal {p : Phase} {s : State} (h : legalAddr s.devAddr = false) :
    issue p s = .refused .addressOutOfRange := by simp [issue, h]

/-- `onAnswer` with no answer yet waits (U9). -/
theorem onAnswer_silent {t : Transaction} {k : Byte → Byte → State → Result} {s : State} (h : s.transport = []) :
    onAnswer t k s = .next s := by simp [onAnswer, h]

/-- `onAnswer` with `Err(e)` raises the transport error (R132). -/
theorem onAnswer_err {t : Transaction} {k : Byte → Byte → State → Result} {s : State} {e : ErrT} {ds : List Draw}
    (h : s.transport = .err e :: ds) :
    onAnswer t k s = .next ((s.record t (.err e) ds).raiseTransportError e) := by simp [onAnswer, h]

/-- `onAnswer` with `Ok` records the answer and goes on. -/
theorem onAnswer_ok {t : Transaction} {k : Byte → Byte → State → Result} {s : State} {r0 r1 : Byte} {ds : List Draw}
    (h : s.transport = .ok r0 r1 :: ds) :
    onAnswer t k s = k r0 r1 (s.record t (.ok r0 r1) ds) := by simp [onAnswer, h]

/-- `oneTransaction` in XFER1 with its own operation in progress consumes the answer. -/
theorem oneTransaction_answer {i : Instr} {t : State → Transaction} {k : Byte → Byte → Response} {s : State}
    (hp : s.phase = .xfer1) (hi : s.inProgress = i) :
    oneTransaction i t k s = onAnswer (t s) (fun r0 r1 s' => .next (s'.respond (k r0 r1))) s := by
  simp [oneTransaction, hp, hi]

/-- `oneTransaction` in IDLE accepts and issues. -/
theorem oneTransaction_idle {i : Instr} {t : State → Transaction} {k : Byte → Byte → Response} {s : State}
    (hp : s.phase = .idle) : oneTransaction i t k s = issue .xfer1 (s.accept i) := by
  simp [oneTransaction, hp]

/-- `oneTransaction` has no effect in UNBOUND, in XFER2, and in XFER1 while another operation is in progress (R15). -/
theorem oneTransaction_not_accepted {i : Instr} {t : State → Transaction} {k : Byte → Byte → Response} {s : State}
    (h : s.phase = .unbound ∨ s.phase = .xfer2 ∨ (s.phase = .xfer1 ∧ s.inProgress ≠ i)) :
    oneTransaction i t k s = .next s := by
  rcases h with h | h | ⟨h, hi⟩ <;> simp_all [oneTransaction]

/-- Everything `oneTransaction` can do when it gives a next state. -/
theorem oneTransaction_cases {i : Instr} {t : State → Transaction} {k : Byte → Byte → Response} {s s' : State}
    (h : oneTransaction i t k s = .next s') :
    s' = s ∨
    (s.phase = .idle ∧ legalAddr s.devAddr = true ∧ s' = { s.accept i with phase := .xfer1 }) ∨
    (s.phase = .xfer1 ∧ s.inProgress = i ∧ ∃ e ds, s.transport = .err e :: ds ∧
      s' = (s.record (t s) (.err e) ds).raiseTransportError e) ∨
    (s.phase = .xfer1 ∧ s.inProgress = i ∧ ∃ r0 r1 ds, s.transport = .ok r0 r1 :: ds ∧
      s' = (s.record (t s) (.ok r0 r1) ds).respond (k r0 r1)) := by
  unfold oneTransaction at h
  split at h
  · cases h; exact .inl rfl
  · rename_i hp
    obtain ⟨hl, rfl⟩ := issue_next_iff.mp h
    exact .inr (.inl ⟨hp, hl, rfl⟩)
  · rename_i hp
    split at h
    · rename_i hi
      unfold onAnswer at h
      split at h
      · cases h; exact .inl rfl
      · rename_i r0 r1 ds hd
        cases h
        exact .inr (.inr (.inr ⟨hp, hi, r0, r1, ds, hd, rfl⟩))
      · rename_i e ds hd
        cases h
        exact .inr (.inr (.inl ⟨hp, hi, e, ds, hd, rfl⟩))
    · cases h; exact .inl rfl
  · cases h; exact .inl rfl

/-- A draw answers with exactly as many bytes as are read, up to two (R33). -/
theorem drawAnswer_ok_length {n : Nat} {d : Draw} {bytes : List Byte} (hn : n ≤ 2)
    (h : drawAnswer n d = .ok bytes) : bytes.length = n := by
  cases d with
  | ok r0 r1 => simp only [drawAnswer, Answer.ok.injEq] at h; subst h; simp; omega
  | err e => cases h

/-- A draw's answer is the error `e` exactly when the draw is. -/
theorem drawAnswer_err_iff {n : Nat} {d : Draw} {e : ErrT} : drawAnswer n d = .err e ↔ d = .err e := by
  cases d <;> simp [drawAnswer]

@[simp] theorem readLen_memWrite (id : RegId) (p : Option Byte) (s : State) : readLen (memWrite id p s) = 0 := rfl
@[simp] theorem readLen_memRead (id : RegId) (s : State) : readLen (memRead id s) = regIdResultLen id := rfl

/-- Every outstanding transaction goes to DEV_ADDR (R10). -/
theorem outstanding_addr {s : State} {t : Transaction} (h : s.outstanding = some t) : txnAddr t = s.devAddr := by
  unfold State.outstanding at h
  split at h <;> try split at h
  all_goals first | (cases h; rfl) | cases h

/-- Every outstanding transaction reads at most two bytes (R33). -/
theorem outstanding_readLen {s : State} {t : Transaction} (h : s.outstanding = some t) : readLen t ≤ 2 := by
  unfold State.outstanding at h
  split at h <;> try split at h
  all_goals first | (cases h; simp [regIdResultLen]) | cases h

/-- A transaction is outstanding in XFER1 and XFER2 only. -/
theorem outstanding_inTransfer {s : State} {t : Transaction} (h : s.outstanding = some t) :
    s.phase = .xfer1 ∨ s.phase = .xfer2 := by
  unfold State.outstanding at h
  split at h <;> simp_all

/-- In XFER1 the outstanding transaction decodes back to the operation in progress (R67). -/
theorem outstanding_busDecode {s : State} {t : Transaction} (hp : s.phase = .xfer1) (h : s.outstanding = some t) :
    busDecode t = some s.inProgress := by
  unfold State.outstanding at h
  rw [hp] at h
  simp only at h
  unfold State.inProgress
  split at h <;> rename_i ho <;> rw [ho] <;> first | (cases h; rfl) | cases h

end Sys2Proof.Machine
end

