-- ==== Sys2Proof/Laws/PerInstr.lean ====
section
/-! SUPPORT. Statements made for every instruction, one lemma per constructor. -/

/-- Family HostWord: the command word of an instruction as a number, cmd_op times 256 plus cmd_arg, with the code the table of
30_encoding R66 gives and the operand, or 0, in cmd_arg (R70, R71). -/
def Sys2Proof.Laws.HostWord.Statement (i : Sys2Proof.Instr) : Prop :=
  (Sys2Proof.encode i).toNat = (Sys2Proof.hostCode i).toNat * 256 + (Sys2Proof.hostArg i).toNat

namespace Sys2Proof.Laws.HostWord

/-- The word is its two fields side by side. -/
theorem word_toNat (op : BitVec 4) (arg : Byte) : (cmdWord op arg).toNat = op.toNat * 256 + arg.toNat := by
  have h1 := cmdOp_toNat (cmdWord op arg)
  have h2 := cmdArg_toNat (cmdWord op arg)
  rw [cmdOp_cmdWord] at h1
  rw [cmdArg_cmdWord] at h2
  omega

theorem new (address : Byte) : Statement (.new address) := word_toNat _ _
theorem release : Statement .release := word_toNat _ _
theorem reset : Statement .reset := word_toNat _ _
theorem triggerMeasurement : Statement .triggerMeasurement := word_toNat _ _
theorem setAddress (newAddress : Byte) : Statement (.setAddress newAddress) := word_toNat _ _
theorem isBusy : Statement .isBusy := word_toNat _ _
theorem readVersion : Statement .readVersion := word_toNat _ _
theorem readTemperature : Statement .readTemperature := word_toNat _ _
theorem readCapacitance : Statement .readCapacitance := word_toNat _ _
theorem readLight : Statement .readLight := word_toNat _ _

end Sys2Proof.Laws.HostWord
end

