-- ==== Sys2Proof/Laws/Step.lean ====
section
/-! SUPPORT. What one step can do, said once (`step_cases`), and what it does in each case; every invariant is a case analysis
over it. -/

namespace Sys2Proof.Machine

/-- The response of an operation with one transaction to the bytes it reads. -/
def responseTo (op : Op) (r0 r1 : Byte) : Response :=
  match op with
  | .new => .done
  | .release => .done
  | .reset => .done
  | .triggerMeasurement => .done
  | .setAddress => .done
  | .isBusy => .bool (busyBit r0)
  | .readVersion => .byte r0
  | .readTemperature => .s16 (combine r0 r1)
  | .readCapacitance => .u16 (combine r0 r1)
  | .readLight => .u16 (combine r0 r1)

/-- ARG_LATCH after acceptance: loaded by `set_address` only (R71, R94). -/
def argAfter (i : Instr) (old : Byte) : Byte :=
  match i with
  | .setAddress a => a
  | .new _ => old
  | .release => old
  | .reset => old
  | .triggerMeasurement => old
  | .isBusy => old
  | .readVersion => old
  | .readTemperature => old
  | .readCapacitance => old
  | .readLight => old

/-- The next states of one step. -/
inductive StepTo (s : State) : State → Prop where
  /-- Nothing to do. -/
  | wait : StepTo s s
  | new (a : Byte) (w : CmdWord) (ws : List CmdWord) (hp : s.phase = .unbound) (hw : s.hostPort = w :: ws)
      (hd : decode w = .instr (.new a)) :
      StepTo s { s with
        devAddr := a, phase := .idle, opLatch := .new, hostPort := ws
        accepted := s.accepted ++ [.new a], responses := s.responses ++ [.done] }
  | release (w : CmdWord) (ws : List CmdWord) (hp : s.phase = .idle) (hw : s.hostPort = w :: ws)
      (hd : decode w = .instr .release) :
      StepTo s { s with
        phase := .unbound, opLatch := .release, hostPort := ws
        accepted := s.accepted ++ [.release], responses := s.responses ++ [.done] }
  /-- A bus operation is accepted and its first transaction issued. -/
  | issued (i : Instr) (w : CmdWord) (ws : List CmdWord) (hp : s.phase = .idle) (hw : s.hostPort = w :: ws)
      (hd : decode w = .instr i) (hb : busOp (opOf i) = true) (hl : legalAddr s.devAddr = true) :
      StepTo s { s with
        phase := .xfer1, opLatch := opOf i, argLatch := argAfter i s.argLatch, hostPort := ws
        accepted := s.accepted ++ [i] }
  /-- The outstanding transaction fails: the transport error. -/
  | failed (t : Transaction) (e : ErrT) (ds : List Draw) (ht : s.outstanding = some t)
      (h2 : s.phase = .xfer2 → s.opLatch = .setAddress) (hd : s.transport = .err e :: ds) :
      StepTo s { s with
        phase := .idle, transport := ds
        history := s.history ++ [⟨s.responses.length, t, .err e⟩], responses := s.responses ++ [.err e] }
  /-- The one transaction of an operation succeeds. -/
  | finished (t : Transaction) (r0 r1 : Byte) (ds : List Draw) (hp : s.phase = .xfer1) (ht : s.outstanding = some t)
      (ho : s.opLatch ≠ .setAddress) (hd : s.transport = .ok r0 r1 :: ds) :
      StepTo s { s with
        phase := .idle, transport := ds
        history := s.history ++ [⟨s.responses.length, t, drawAnswer (readLen t) (.ok r0 r1)⟩]
        responses := s.responses ++ [responseTo s.opLatch r0 r1] }
  /-- The address write succeeds, and the reset write is issued. -/
  | reissued (r0 r1 : Byte) (ds : List Draw) (hp : s.phase = .xfer1) (ho : s.opLatch = .setAddress)
      (hl : legalAddr s.devAddr = true) (hd : s.transport = .ok r0 r1 :: ds) :
      StepTo s { s with
        phase := .xfer2, transport := ds
        history := s.history ++ [⟨s.responses.length, .write s.devAddr [0x01#8, s.argLatch], .ok []⟩] }
  /-- The reset write succeeds, and DEV_ADDR is updated. -/
  | updated (r0 r1 : Byte) (ds : List Draw) (hp : s.phase = .xfer2) (ho : s.opLatch = .setAddress)
      (hd : s.transport = .ok r0 r1 :: ds) :
      StepTo s { s with
        devAddr := s.argLatch, phase := .idle, transport := ds
        history := s.history ++ [⟨s.responses.length, .write s.devAddr [0x06#8], .ok []⟩]
        responses := s.responses ++ [.done] }

/-- The bus operations with one transaction. -/
theorem exec_inProgress {s : State} (hp : s.phase = .xfer1) (hb : busOp s.opLatch = true)
    (ho : s.opLatch ≠ .setAddress) :
    ∃ t, s.outstanding = some t ∧
      exec s.inProgress s = onAnswer t (fun r0 r1 s' => .next (s'.respond (responseTo s.opLatch r0 r1))) s := by
  have key : ∀ i t k, s.inProgress = i → exec i s = oneTransaction i t k s → s.outstanding = some (t s) →
      k = responseTo s.opLatch → ∃ t, s.outstanding = some t ∧
        exec s.inProgress s = onAnswer t (fun r0 r1 s' => .next (s'.respond (responseTo s.opLatch r0 r1))) s := by
    intro i t k hi he hs hk
    exact ⟨t s, hs, by rw [hi, he, oneTransaction_answer hp hi, hk]⟩
  cases hx : s.opLatch with
  | new => simp [hx, busOp] at hb
  | release => simp [hx, busOp] at hb
  | setAddress => exact absurd hx ho
  | reset => rw [hx] at key; exact key .reset _ _ (by simp [State.inProgress, hx, latchedInstr]) rfl (by simp [State.outstanding, hp, hx]) rfl
  | triggerMeasurement => rw [hx] at key; exact key .triggerMeasurement _ _ (by simp [State.inProgress, hx, latchedInstr]) rfl (by simp [State.outstanding, hp, hx]) rfl
  | isBusy => rw [hx] at key; exact key .isBusy _ _ (by simp [State.inProgress, hx, latchedInstr]) rfl (by simp [State.outstanding, hp, hx]) rfl
  | readVersion => rw [hx] at key; exact key .readVersion _ _ (by simp [State.inProgress, hx, latchedInstr]) rfl (by simp [State.outstanding, hp, hx]) rfl
  | readTemperature => rw [hx] at key; exact key .readTemperature _ _ (by simp [State.inProgress, hx, latchedInstr]) rfl (by simp [State.outstanding, hp, hx]) rfl
  | readCapacitance => rw [hx] at key; exact key .readCapacitance _ _ (by simp [State.inProgress, hx, latchedInstr]) rfl (by simp [State.outstanding, hp, hx]) rfl
  | readLight => rw [hx] at key; exact key .readLight _ _ (by simp [State.inProgress, hx, latchedInstr]) rfl (by simp [State.outstanding, hp, hx]) rfl

/-- A bus operation run in IDLE is accepted, and its first transaction issued or refused (R12, R35). -/
theorem exec_idle {i : Instr} {s : State} (hp : s.phase = .idle) (hb : busOp (opOf i) = true) :
    exec i s = issue .xfer1 { s.accept i with argLatch := argAfter i s.argLatch } := by
  have h1 : ∀ t k, oneTransaction i t k s = issue .xfer1 (s.accept i) := fun t k => oneTransaction_idle hp
  cases i with
  | new a => simp [opOf, busOp] at hb
  | release => simp [opOf, busOp] at hb
  | setAddress a => simp [exec, execSetAddress, hp, argAfter]
  | reset => exact h1 _ _
  | triggerMeasurement => exact h1 _ _
  | isBusy => exact h1 _ _
  | readVersion => exact h1 _ _
  | readTemperature => exact h1 _ _
  | readCapacitance => exact h1 _ _
  | readLight => exact h1 _ _

/-- `set_address` in XFER1 (R94). -/
theorem execSetAddress_xfer1 {s : State} (hp : s.phase = .xfer1) (ho : s.opLatch = .setAddress) :
    exec s.inProgress s =
      onAnswer (.write s.devAddr [0x01#8, s.argLatch]) (fun _ _ s' => issue .xfer2 s') s := by
  have hi : s.inProgress = .setAddress s.argLatch := by simp [State.inProgress, ho, latchedInstr]
  simp only [hi, exec, execSetAddress, hp, if_true]
  rfl

/-- `set_address` in XFER2 (R94). -/
theorem execSetAddress_xfer2 {s : State} (hp : s.phase = .xfer2) (ho : s.opLatch = .setAddress) :
    exec s.inProgress s = onAnswer (.write s.devAddr [0x06#8])
      (fun _ _ s' => .next (({ s' with devAddr := s'.argLatch }).respond .done)) s := by
  have hi : s.inProgress = .setAddress s.argLatch := by simp [State.inProgress, ho, latchedInstr]
  simp only [hi, exec, execSetAddress, hp, if_true]
  rfl

/-- The step in UNBOUND and IDLE, when a word decodes to an operation PHASE admits. -/
theorem step_admitted {s : State} {w : CmdWord} {ws : List CmdWord} {i : Instr}
    (hp : s.phase = .unbound ∨ s.phase = .idle) (hw : s.hostPort = w :: ws) (hd : decode w = .instr i)
    (ha : admits s.phase i = true) : step s = exec i { s with hostPort := ws } := by
  rcases hp with hp | hp <;> simp_all [step, fetch, offered]

/-- The step in UNBOUND and IDLE, when PHASE does not admit the operation offered (R15). -/
theorem step_unadmitted {s : State} {w : CmdWord} {ws : List CmdWord} {i : Instr}
    (hp : s.phase = .unbound ∨ s.phase = .idle) (hw : s.hostPort = w :: ws) (hd : decode w = .instr i)
    (ha : admits s.phase i = false) : step s = .next s := by
  rcases hp with hp | hp <;> simp_all [step, fetch, offered]

theorem step_reserved_unbound {s : State} {w : CmdWord} {ws : List CmdWord} {c : BitVec 4} (hp : s.phase = .unbound)
    (hw : s.hostPort = w :: ws) (hd : decode w = .reserved c) : step s = .next s := by
  simp_all [step, fetch, offered]

theorem step_reserved_idle {s : State} {w : CmdWord} {ws : List CmdWord} {c : BitVec 4} (hp : s.phase = .idle)
    (hw : s.hostPort = w :: ws) (hd : decode w = .reserved c) : step s = .refused (.reservedCode c) := by
  simp_all [step, fetch, offered]

theorem step_nothing_offered {s : State} (hp : s.phase = .unbound ∨ s.phase = .idle) (hw : s.hostPort = []) :
    step s = .next s := by
  rcases hp with hp | hp <;> simp_all [step, fetch, offered]

theorem step_xfer1 {s : State} (hp : s.phase = .xfer1) (hb : busOp s.opLatch = true) :
    step s = exec s.inProgress s := by simp [step, fetch, hp, hb]

theorem step_xfer2 {s : State} (hp : s.phase = .xfer2) (ho : s.opLatch = .setAddress) :
    step s = exec s.inProgress s := by simp [step, fetch, hp, ho]

theorem step_xfer1_stuck {s : State} (hp : s.phase = .xfer1) (hb : busOp s.opLatch = false) :
    step s = .fault .sequencer := by simp [step, fetch, hp, hb]

theorem step_xfer2_stuck {s : State} (hp : s.phase = .xfer2) (ho : s.opLatch ≠ .setAddress) :
    step s = .fault .sequencer := by simp [step, fetch, hp, ho]

/-- In XFER1 with a bus operation latched, a transaction is outstanding. -/
theorem outstanding_xfer1 {s : State} (hp : s.phase = .xfer1) (hb : busOp s.opLatch = true) :
    ∃ t, s.outstanding = some t := by
  cases ho : s.opLatch <;> simp_all [State.outstanding, busOp]

theorem outstanding_setAddress1 {s : State} (hp : s.phase = .xfer1) (ho : s.opLatch = .setAddress) :
    s.outstanding = some (.write s.devAddr [0x01#8, s.argLatch]) := by
  simp only [State.outstanding, hp, ho]; rfl

theorem outstanding_xfer2 {s : State} (hp : s.phase = .xfer2) :
    s.outstanding = some (.write s.devAddr [0x06#8]) := by
  simp only [State.outstanding, hp]; rfl

theorem admits_unbound_iff {i : Instr} : admits .unbound i = true ↔ ∃ a, i = .new a := by
  cases i <;> simp [admits, opOf]

theorem admits_idle_iff {i : Instr} : admits .idle i = true ↔ i = .release ∨ busOp (opOf i) = true := by
  cases i <;> simp [admits, opOf, busOp]

/-- Everything a step can do when it gives a next state. -/
theorem step_cases {s s' : State} (h : step s = .next s') : StepTo s s' := by
  cases hp : s.phase with
  | unbound =>
    cases hw : s.hostPort with
    | nil => rw [step_nothing_offered (.inl hp) hw] at h; cases h; exact .wait
    | cons w ws =>
      cases hd : decode w with
      | reserved c => rw [step_reserved_unbound hp hw hd] at h; cases h; exact .wait
      | instr i =>
        cases ha : admits s.phase i with
        | false => rw [step_unadmitted (.inl hp) hw hd ha] at h; cases h; exact .wait
        | true =>
          rw [step_admitted (.inl hp) hw hd ha] at h
          rw [hp] at ha
          obtain ⟨a, rfl⟩ := admits_unbound_iff.mp ha
          simp only [exec, execNew, hp, Host.Outcome.next.injEq] at h
          subst h
          exact .new a w ws hp hw hd
  | idle =>
    cases hw : s.hostPort with
    | nil => rw [step_nothing_offered (.inr hp) hw] at h; cases h; exact .wait
    | cons w ws =>
      cases hd : decode w with
      | reserved c => rw [step_reserved_idle hp hw hd] at h; cases h
      | instr i =>
        cases ha : admits s.phase i with
        | false => rw [step_unadmitted (.inr hp) hw hd ha] at h; cases h; exact .wait
        | true =>
          rw [step_admitted (.inr hp) hw hd ha] at h
          rw [hp] at ha
          obtain rfl | hb := admits_idle_iff.mp ha
          · simp only [exec, execRelease, hp, Host.Outcome.next.injEq] at h
            subst h
            exact .release w ws hp hw hd
          · rw [exec_idle (s := { s with hostPort := ws }) hp hb] at h
            obtain ⟨hl, rfl⟩ := issue_next_iff.mp h
            exact .issued i w ws hp hw hd hb hl
  | xfer1 =>
    cases hb : busOp s.opLatch with
    | false => rw [step_xfer1_stuck hp hb] at h; cases h
    | true =>
      rw [step_xfer1 hp hb] at h
      by_cases ho : s.opLatch = .setAddress
      · rw [execSetAddress_xfer1 hp ho] at h
        match hd : s.transport with
        | [] => rw [onAnswer_silent hd] at h; cases h; exact .wait
        | .err e :: ds =>
          rw [onAnswer_err hd] at h; cases h
          exact .failed _ e ds (outstanding_setAddress1 hp ho) (fun _ => ho) hd
        | .ok r0 r1 :: ds =>
          rw [onAnswer_ok hd] at h
          obtain ⟨hl, rfl⟩ := issue_next_iff.mp h
          exact .reissued r0 r1 ds hp ho hl hd
      · obtain ⟨t, ht, he⟩ := exec_inProgress hp hb ho
        rw [he] at h
        match hd : s.transport with
        | [] => rw [onAnswer_silent hd] at h; cases h; exact .wait
        | .err e :: ds =>
          rw [onAnswer_err hd] at h; cases h
          exact .failed t e ds ht (fun h2 => by simp [hp] at h2) hd
        | .ok r0 r1 :: ds =>
          rw [onAnswer_ok hd] at h; cases h
          exact .finished t r0 r1 ds hp ht ho hd
  | xfer2 =>
    by_cases ho : s.opLatch = .setAddress
    · rw [step_xfer2 hp ho, execSetAddress_xfer2 hp ho] at h
      match hd : s.transport with
      | [] => rw [onAnswer_silent hd] at h; cases h; exact .wait
      | .err e :: ds =>
        rw [onAnswer_err hd] at h; cases h
        exact .failed _ e ds (outstanding_xfer2 hp) (fun _ => ho) hd
      | .ok r0 r1 :: ds =>
        rw [onAnswer_ok hd] at h; cases h
        exact .updated r0 r1 ds hp ho hd
    · rw [step_xfer2_stuck hp ho] at h; cases h

end Sys2Proof.Machine
end

