-- ==== Sys2Proof/Laws/Run.lean ====
section
/-! SUPPORT. How a run of the host's interface unfolds, a step at a time, and the induction packaged once: what holds of a
state and is kept by every step holds of every state a run reaches. -/

namespace Sys2Proof.Machine

@[simp] theorem run_zero (s : State) : Host.Core.run Sys2Proof.core 0 s = .next s := rfl

theorem run_succ_next {s s' : State} (k : Nat) (h : step s = .next s') :
    Host.Core.run Sys2Proof.core (k + 1) s = Host.Core.run Sys2Proof.core k s' := by
  have h' : Sys2Proof.core.step s = .next s' := h
  simp only [Host.Core.run]
  rw [h']

/-- A run of one step or more that ends in a state began with a step that gave a next state. -/
theorem run_succ_cases {s t : State} {k : Nat} (h : Host.Core.run Sys2Proof.core (k + 1) s = .next t) :
    ∃ s', step s = .next s' ∧ Host.Core.run Sys2Proof.core k s' = .next t := by
  simp only [Host.Core.run] at h
  split at h
  · rename_i s' hs; exact ⟨s', hs, h⟩
  · cases h
  · cases h

/-- What holds of a state, and is kept by every step, holds after every run from it. -/
theorem run_induction {P : State → Prop} (keep : ∀ s t, P s → step s = .next t → P t) :
    ∀ (k : Nat) (s t : State), P s → Host.Core.run Sys2Proof.core k s = .next t → P t
  | 0, s, t, hs, h => by cases h; exact hs
  | k + 1, s, t, hs, h => by
    obtain ⟨s', h1, h2⟩ := run_succ_cases h
    exact run_induction keep k s' t (keep s s' hs h1) h2

end Sys2Proof.Machine
end

