-- ==== Sys2Proof/Machine/ReferenceSensor.lean ====
section
/-! DEFINITION. The reference sensor (20_memory R57), for simulation and smoke tests only: "no claim may be stated through
it". Its draws are arguments (log 20). -/

namespace Sys2Proof.Machine

/-- The state of the reference sensor, by R57's names: S_ADDR, S_NEXT, S_CAP, S_TEMP, S_LIGHT, S_VER, S_BUSY. -/
structure RefSensor where
  sAddr : Byte
  sNext : Option Byte
  sCap : Half
  sTemp : Half
  sLight : Half
  sVer : Byte
  sBusy : Byte
deriving DecidableEq, Repr

/-- The draws of one answer: the error, and the nonzero busy byte. -/
structure RefChoice where
  err : ErrT
  busy : Byte
deriving DecidableEq, Repr

/-- The high byte of a latched result, v[15:8]. -/
def highByte (v : Half) : Byte := BitVec.extractLsb' 8 8 v

/-- The low byte of a latched result, v[7:0]. -/
def lowByte (v : Half) : Byte := BitVec.extractLsb' 0 8 v

/-- R57's behaviour, line by line. -/
def refAnswer (c : RefChoice) (t : Transaction) (x : RefSensor) : Draw × RefSensor :=
  match t with
  | .write a [b] =>
    if a ≠ x.sAddr then (.err c.err, x)
    else if b = 0x06#8 then
      (.ok 0 0, { x with sAddr := x.sNext.getD x.sAddr, sNext := none, sBusy := 0x00#8 })
    else if b = 0x03#8 then (.ok 0 0, { x with sBusy := if c.busy = 0x00#8 then 0x01#8 else c.busy })
    else (.err c.err, x)
  | .write a [b, v] =>
    if a ≠ x.sAddr then (.err c.err, x)
    else if b = 0x01#8 then (.ok 0 0, { x with sNext := some v })
    else (.err c.err, x)
  | .write _ _ => (.err c.err, x)
  | .writeRead a [b] n =>
    if a ≠ x.sAddr then (.err c.err, x)
    else if n = 1 then
      if b = 0x09#8 then (.ok x.sBusy 0, x)
      else if b = 0x07#8 then (.ok x.sVer 0, x)
      else (.err c.err, x)
    else if n = 2 then
      if b = 0x05#8 then (.ok (highByte x.sTemp) (lowByte x.sTemp), x)
      else if b = 0x00#8 then (.ok (highByte x.sCap) (lowByte x.sCap), x)
      else if b = 0x04#8 then (.ok (highByte x.sLight) (lowByte x.sLight), x)
      else (.err c.err, x)
    else (.err c.err, x)
  | .writeRead _ _ _ => (.err c.err, x)

/-- R57's internal step "settle", enabled while S_BUSY is nonzero. -/
def refSettle (light temp cap : Half) (x : RefSensor) : RefSensor :=
  if x.sBusy = 0x00#8 then x
  else { x with sLight := light, sTemp := temp, sCap := cap, sBusy := 0x00#8 }

/-- The reference sensor as the contract sees it: nothing ever happens to its readiness and results but what R123 says, so
the contract's record `known` always stands. -/
def refView (x : RefSensor) : Sensor where
  addr := x.sAddr
  armed := x.sNext
  busy := x.sBusy != 0x00#8
  known := true
  light := x.sLight
  temp := x.sTemp
  cap := x.sCap
  version := x.sVer

/-- One step of the engine with the reference sensor at the far end: an outstanding transaction is answered by it. -/
def simStep (c : RefChoice) (s : State) (x : RefSensor) : Result × RefSensor :=
  match s.outstanding with
  | none => (step s, x)
  | some t => (step { s with transport := (refAnswer c t x).1 :: s.transport }, (refAnswer c t x).2)

end Sys2Proof.Machine
end

