-- ==== Sys2Proof/Laws/Sensor.lean ====
section
/-! SUPPORT. The reference sensor of 20_memory R57 is consistent with the contract of R50 to R55: every answer it gives to a
frame of the engine, and the state it then has, the contract allows. -/

namespace Sys2Proof.Machine

/-- A latched result is its two bytes, high byte first (R39). -/
theorem combine_highByte_lowByte (v : Half) : combine (highByte v) (lowByte v) = v := by
  have := v.isLt
  apply BitVec.eq_of_toNat_eq
  simp only [combine, highByte, lowByte, BitVec.toNat_append, BitVec.extractLsb'_toNat, Nat.shiftRight_eq_div_pow]
  rw [← Nat.shiftLeft_add_eq_or_of_lt (by omega), Nat.shiftLeft_eq]
  omega

@[simp] theorem txnAddr_write (a : Byte) (data : List Byte) : txnAddr (.write a data) = a := rfl
@[simp] theorem txnAddr_writeRead (a : Byte) (data : List Byte) (n : Nat) : txnAddr (.writeRead a data n) = a := rfl

theorem noResetCycle_self (x : Sensor) : noResetCycle x x := ⟨rfl, fun _ => rfl⟩

theorem sameResults_self (x : Sensor) : sameResults x x := ⟨rfl, rfl, rfl⟩

/-- A query that changes nothing is one the contract allows of a sensor whose readiness and results are known. -/
theorem queryEffect_self {x : Sensor} (h : x.known = true) : queryEffect x x :=
  ⟨noResetCycle_self x, fun _ => ⟨rfl, sameResults_self x, h⟩⟩

/-- A query answered with the bytes the sensor holds may leave it as it is. -/
theorem query_unchanged_allowed {x : Sensor} {data : List Byte} {n : Nat} {d : Draw} (hk : x.known = true)
    (hb : ∃ bytes, drawAnswer n d = .ok bytes ∧ queryBytes x data n bytes) :
    sensorAllows x (.writeRead x.addr data n) (drawAnswer n d) x := by
  obtain ⟨bytes, hd, hb⟩ := hb
  rw [hd]
  simp only [sensorAllows, txnAddr_writeRead, ne_eq, not_true_eq_false, if_false]
  split
  · trivial
  · exact ⟨queryEffect_self hk, hb⟩

/-- Of a sensor that has been triggered or has settled, a query leaves the address, readiness and results alone, so what a
poll or a read says of them is so until the next write or the sensor's next move of its own (R51, R52, R123). -/
theorem query_keeps_known {x y : Sensor} {a : Byte} {data : List Byte} {n : Nat} {ans : Answer} (hk : x.known = true)
    (hf : (busDecode (.writeRead a data n)).isSome = true) (h : sensorAllows x (.writeRead a data n) ans y) :
    y.addr = x.addr ∧ y.busy = x.busy ∧ sameResults x y ∧ y.known = true := by
  simp only [sensorAllows] at h
  split at h
  · subst h; exact ⟨rfl, rfl, sameResults_self y, hk⟩
  · rw [if_neg fun hn => by simp [hn] at hf] at h
    exact ⟨h.1.1.1, h.1.2 hk⟩

/-- A delivered trigger leaves an idle sensor busy, with its previous results (R51, R54, R123). -/
theorem trigger_makes_known {x y : Sensor} {bytes : List Byte} (hb : x.busy = false)
    (h : sensorAllows x (.write x.addr [0x03#8]) (.ok bytes) y) :
    y.busy = true ∧ sameResults x y ∧ y.known = true := by
  simp only [sensorAllows, txnAddr_write, busDecode, ne_eq, not_true_eq_false, if_false, writeEffect] at h
  rcases h.2 with ⟨h6, -⟩ | ⟨-, h3⟩
  · cases h6
  · exact h3.2 hb

/-- Of the moves the sensor makes by itself, only settling and a reboot change light or readiness (R54, C4). -/
theorem light_moves {x y : Sensor} (h : sensorMoves x y) :
    sensorSettles x y ∨ sensorReboots x y ∨ (y.light = x.light ∧ y.busy = x.busy ∧ y.addr = x.addr) := by
  rcases h with h | h | h
  · exact .inl h
  · exact .inr (.inr (by rw [← (h : { x with temp := y.temp, cap := y.cap } = y)]; exact ⟨rfl, rfl, rfl⟩))
  · exact .inr (.inl h)

/-- Every answer of the reference sensor to a frame of the engine is one the contract allows. -/
theorem refAnswer_allowed (c : RefChoice) (t : Transaction) (x : RefSensor) (ht : (busDecode t).isSome = true) :
    sensorAllows (refView x) t (drawAnswer (readLen t) (refAnswer c t x).1) (refView (refAnswer c t x).2) := by
  unfold busDecode at ht
  split at ht
  · rename_i a b
    by_cases ha : a = x.sAddr
    · by_cases h6 : b = 0x06#8
      · cases hn : x.sNext <;>
          simp [sensorAllows, refAnswer, refView, ha, h6, drawAnswer, readLen, writeEffect, addressAfterReset, hn]
      · have h3 : b = 0x03#8 := by
          rw [if_neg h6] at ht
          exact Decidable.byContradiction fun h3 => by simp [h3] at ht
        simp only [sensorAllows, refAnswer, refView, ha, h3, drawAnswer, readLen, writeEffect, triggerEffect, noResetCycle,
          sameResults]
        by_cases hb : c.busy = 0x00#8 <;> simp [hb]
    · simp [sensorAllows, refAnswer, refView, ha]
  · rename_i a b v
    have h1 : b = 0x01#8 := Decidable.byContradiction fun h1 => by simp [h1] at ht
    by_cases ha : a = x.sAddr
    · simp [sensorAllows, refAnswer, refView, ha, h1, drawAnswer, readLen, writeEffect, armEffect]
    · simp [sensorAllows, refAnswer, refView, ha]
  · simp at ht
  · rename_i a b n
    by_cases ha : a = x.sAddr
    · subst ha
      split at ht
      · rename_i hn
        split at ht
        · rename_i hb
          subst hb
          rw [show refAnswer c (.writeRead x.sAddr [0x09#8] n) x = (.ok x.sBusy 0, x) by simp [refAnswer, hn]]
          exact query_unchanged_allowed (x := refView x) rfl (by simp [drawAnswer, hn, queryBytes, refView])
        · split at ht
          · rename_i _ hb
            subst hb
            rw [show refAnswer c (.writeRead x.sAddr [0x07#8] n) x = (.ok x.sVer 0, x) by simp [refAnswer, hn]]
            exact query_unchanged_allowed (x := refView x) rfl (by simp [drawAnswer, hn, queryBytes, refView])
          · simp at ht
      · split at ht
        · rename_i hn
          split at ht
          · rename_i hb
            subst hb
            rw [show refAnswer c (.writeRead x.sAddr [0x05#8] n) x = (.ok (highByte x.sTemp) (lowByte x.sTemp), x) by simp [refAnswer, hn]]
            exact query_unchanged_allowed (x := refView x) rfl (by simp [drawAnswer, hn, queryBytes, refView, combine_highByte_lowByte])
          · split at ht
            · rename_i hb
              subst hb
              rw [show refAnswer c (.writeRead x.sAddr [0x00#8] n) x = (.ok (highByte x.sCap) (lowByte x.sCap), x) by simp [refAnswer, hn]]
              exact query_unchanged_allowed (x := refView x) rfl (by simp [drawAnswer, hn, queryBytes, refView, combine_highByte_lowByte])
            · split at ht
              · rename_i hb
                subst hb
                rw [show refAnswer c (.writeRead x.sAddr [0x04#8] n) x = (.ok (highByte x.sLight) (lowByte x.sLight), x) by simp [refAnswer, hn]]
                exact query_unchanged_allowed (x := refView x) rfl (by simp [drawAnswer, hn, queryBytes, refView, combine_highByte_lowByte])
              · simp at ht
        · simp at ht
    · simp [sensorAllows, refAnswer, refView, ha]
  · simp at ht

/-- The reference sensor's settling is one the contract allows, whenever it changes anything (R54). -/
theorem refSettle_allowed (light temp cap : Half) (x : RefSensor) (hx : x.sBusy ≠ 0x00#8) :
    sensorSettles (refView x) (refView (refSettle light temp cap x)) := by
  simp [sensorSettles, refSettle, refView, noResetCycle, hx]

end Sys2Proof.Machine
end

