-- ==== Sys2Proof/Machine/Text.lean ====
section
/-! DEFINITION. The textual form of operations and of the transport script (30_encoding R76). -/

namespace Sys2Proof.Machine

/-- The mnemonic of an operation (R66). -/
def mnemonic : Op → String
  | .new => "new"
  | .release => "release"
  | .reset => "reset"
  | .triggerMeasurement => "trigger_measurement"
  | .setAddress => "set_address"
  | .isBusy => "is_busy"
  | .readVersion => "read_version"
  | .readTemperature => "read_temperature"
  | .readCapacitance => "read_capacitance"
  | .readLight => "read_light"

/-- One hexadecimal digit. -/
def hexDigit (n : Nat) : String :=
  ["0", "1", "2", "3", "4", "5", "6", "7", "8", "9", "A", "B", "C", "D", "E", "F"].getD n "?"

/-- A byte in hexadecimal, 0xNN. -/
def byteText (b : Byte) : String := "0x" ++ hexDigit (b.toNat / 16) ++ hexDigit (b.toNat % 16)

/-- A byte list, [0xNN,0xNN]. -/
def bytesText (bs : List Byte) : String := "[" ++ String.intercalate "," (bs.map byteText) ++ "]"

/-- The operation name, then its operand in parentheses, hexadecimal for addresses (R76). -/
def instrText : Instr → String
  | .new a => mnemonic .new ++ "(" ++ byteText a ++ ")"
  | .release => mnemonic .release ++ "()"
  | .reset => mnemonic .reset ++ "()"
  | .triggerMeasurement => mnemonic .triggerMeasurement ++ "()"
  | .setAddress a => mnemonic .setAddress ++ "(" ++ byteText a ++ ")"
  | .isBusy => mnemonic .isBusy ++ "()"
  | .readVersion => mnemonic .readVersion ++ "()"
  | .readTemperature => mnemonic .readTemperature ++ "()"
  | .readCapacitance => mnemonic .readCapacitance ++ "()"
  | .readLight => mnemonic .readLight ++ "()"

/-- The transaction part of a transport script line: W(addr,[bytes]) or WR(addr,[bytes],n) (R76). -/
def transactionText : Transaction → String
  | .write a data => "W(" ++ byteText a ++ "," ++ bytesText data ++ ")"
  | .writeRead a data n => "WR(" ++ byteText a ++ "," ++ bytesText data ++ "," ++ hexDigit n ++ ")"

/-- A 16-bit pattern in hexadecimal, 0xNNNN. -/
def halfText (v : Half) : String :=
  "0x" ++ hexDigit (v.toNat / 4096) ++ hexDigit (v.toNat / 256 % 16) ++ hexDigit (v.toNat / 16 % 16) ++
    hexDigit (v.toNat % 16)

/-- The answer part of a transport script line: Ok, Ok([bytes]) or Err(e) (R76). -/
def answerText : Answer → String
  | .ok [] => "Ok"
  | .ok (b :: bs) => "Ok(" ++ bytesText (b :: bs) ++ ")"
  | .err e => "Err(" ++ Nat.repr e.token ++ ")"

/-- A response as R72 and R76 write it. -/
def responseText : Response → String
  | .done => "Done"
  | .bool b => if b then "Bool(1)" else "Bool(0)"
  | .byte v => "Byte(" ++ byteText v ++ ")"
  | .s16 v => "S16(" ++ halfText v ++ ")"
  | .u16 v => "U16(" ++ halfText v ++ ")"
  | .err e => "Err(" ++ Nat.repr e.token ++ ")"

end Sys2Proof.Machine
end

