-- ==== Sys2Proof/Tests/Slice0.lean ====
section
/-! SUPPORT. Small tests of one step each, their expected results from spec/95_test_vectors.md and the rules, and a witness
for the hypotheses of every statement that has any. -/

namespace Sys2Proof.Tests

open Sys2Proof Sys2Proof.Machine Sys2Proof.Statements

/-! ### WellFormed: an ill-formed term for each check (R12, R154 a) -/

theorem test_new_128_ill_formed : Instr.wellFormed (.new 0x80#8) = false := by decide
theorem test_new_127_well_formed : Instr.wellFormed (.new 0x7F#8) = true := by decide
theorem test_set_address_128_ill_formed : Instr.wellFormed (.setAddress 0x80#8) = false := by decide
theorem test_set_address_127_well_formed : Instr.wellFormed (.setAddress 0x7F#8) = true := by decide

/-! ### Decoding: a word written out bit by bit from R70's fields for every constructor, {cmd_op, cmd_arg} -/

theorem test_decode_new : decode 0b1110_00100000#12 = .instr (.new 0x20#8) := by decide
theorem test_decode_release : decode 0b1111_00000000#12 = .instr .release := by decide
theorem test_decode_reset : decode 0b0110_11111111#12 = .instr .reset := by decide
theorem test_decode_trigger_measurement : decode 0b0011_00000000#12 = .instr .triggerMeasurement := by decide
theorem test_decode_set_address : decode 0b0001_10000001#12 = .instr (.setAddress 0x81#8) := by decide
theorem test_decode_is_busy : decode 0b1001_00000000#12 = .instr .isBusy := by decide
theorem test_decode_read_version : decode 0b0111_00000000#12 = .instr .readVersion := by decide
theorem test_decode_read_temperature : decode 0b0101_00000000#12 = .instr .readTemperature := by decide
theorem test_decode_read_capacitance : decode 0b0000_00000000#12 = .instr .readCapacitance := by decide
theorem test_decode_read_light : decode 0b0100_00000000#12 = .instr .readLight := by decide
theorem test_decode_reserved : [0x200#12, 0x8FF#12, 0xA00#12, 0xB00#12, 0xC00#12, 0xD00#12].map decode =
    [.reserved 0x2#4, .reserved 0x8#4, .reserved 0xA#4, .reserved 0xB#4, .reserved 0xC#4, .reserved 0xD#4] := by decide
theorem test_table_word : decodeTableWord 16 0x121 = some (.setAddress 0x21#8) := by decide
theorem test_table_word_too_wide : decodeTableWord 16 0x1600 = none := by decide

/-! ### Small states -/

/-- An error: the one that every ErrT has (log 3). -/
def anError : ErrT := ⟨0, .inl rfl⟩

/-- A driver bound to address 0x20, IDLE. -/
def idle : State := { State.reset with devAddr := 0x20#8, phase := .idle, accepted := [.new 0x20#8], responses := [.done] }

/-- The same with the word `w` offered. -/
def offering (w : CmdWord) : State := { idle with hostPort := [w] }

/-- The operation `o` in progress, its first transaction outstanding, with the answers `ds` to come. -/
def xfer (o : Op) (ds : List Draw) : State :=
  { idle with
    phase := .xfer1, opLatch := o, argLatch := 0x21#8, transport := ds
    accepted := [.new 0x20#8, latchedInstr o 0x21#8] }

/-- `set_address(0x21)` with its reset write outstanding. -/
def xferReset (ds : List Draw) : State :=
  { xfer .setAddress ds with phase := .xfer2, history := [⟨1, .write 0x20#8 [0x01#8, 0x21#8], .ok []⟩] }

/-- The next state of a result. -/
def nextOf : Result → Option State
  | .next s => some s
  | .fault _ => none
  | .refused _ => none

/-- The refusal of a result. -/
def refusalOf : Result → Option Refusal
  | .next _ => none
  | .fault _ => none
  | .refused r => some r

/-- What a step that consumes an answer shows: PHASE, DEV_ADDR, the last transaction with its answer, the last response. -/
def shows (r : Result) : Option (Phase × Byte × Option (Transaction × Answer) × Option Response) :=
  (nextOf r).map fun s =>
    (s.phase, s.devAddr, s.history.getLast?.map (fun e => (e.txn, e.answer)), s.responses.getLast?)

/-! ### The operations, by the vectors of 95_test_vectors -/

/-- L1. -/
theorem test_new : shows (step { State.reset with hostPort := [0xE20#12] }) = some (.idle, 0x20#8, none, some .done) := by
  decide
/-- L8: an address above 127 is stored. -/
theorem test_new_stores_128 : (nextOf (exec (.new 0x80#8) State.reset)).map (·.devAddr) = some 0x80#8 := by decide
/-- L3. -/
theorem test_release : (nextOf (step (offering 0xF00#12))).map (fun s => (s.phase, s.history, s.responses)) =
    some (.unbound, [], [.done, .done]) := by decide
/-- F1. -/
theorem test_reset_ok : shows (exec .reset (xfer .reset [.ok 0 0])) =
    some (.idle, 0x20#8, some (.write 0x20#8 [0x06#8], .ok []), some .done) := by decide
/-- E1. -/
theorem test_reset_err (e : ErrT) : shows (exec .reset (xfer .reset [.err e])) =
    some (.idle, 0x20#8, some (.write 0x20#8 [0x06#8], .err e), some (.err e)) := rfl
/-- F2. -/
theorem test_trigger_ok : shows (exec .triggerMeasurement (xfer .triggerMeasurement [.ok 0 0])) =
    some (.idle, 0x20#8, some (.write 0x20#8 [0x03#8], .ok []), some .done) := by decide
/-- F3, P2: after the first answer DEV_ADDR is still the old address. -/
theorem test_set_address_first : shows (exec (.setAddress 0x21#8) (xfer .setAddress [.ok 0 0])) =
    some (.xfer2, 0x20#8, some (.write 0x20#8 [0x01#8, 0x21#8], .ok []), some .done) := by decide
/-- F3, P2: the second answer updates it; the reset went to the old address. -/
theorem test_set_address_second : shows (exec (.setAddress 0x21#8) (xferReset [.ok 0 0])) =
    some (.idle, 0x21#8, some (.write 0x20#8 [0x06#8], .ok []), some .done) := by decide
/-- E3, P3. -/
theorem test_set_address_write_fails (e : ErrT) : shows (exec (.setAddress 0x21#8) (xfer .setAddress [.err e])) =
    some (.idle, 0x20#8, some (.write 0x20#8 [0x01#8, 0x21#8], .err e), some (.err e)) := rfl
/-- E4, P4. -/
theorem test_set_address_reset_fails (e : ErrT) : shows (exec (.setAddress 0x21#8) (xferReset [.err e])) =
    some (.idle, 0x20#8, some (.write 0x20#8 [0x06#8], .err e), some (.err e)) := rfl
/-- S6, B1. -/
theorem test_is_busy_zero : shows (exec .isBusy (xfer .isBusy [.ok 0x00#8 0xFF#8])) =
    some (.idle, 0x20#8, some (.writeRead 0x20#8 [0x09#8] 1, .ok [0x00#8]), some (.bool false)) := by decide
/-- B4. -/
theorem test_is_busy_0x80 : shows (exec .isBusy (xfer .isBusy [.ok 0x80#8 0x00#8])) =
    some (.idle, 0x20#8, some (.writeRead 0x20#8 [0x09#8] 1, .ok [0x80#8]), some (.bool true)) := by decide
/-- S10, F5. -/
theorem test_read_version : shows (exec .readVersion (xfer .readVersion [.ok 0x26#8 0x00#8])) =
    some (.idle, 0x20#8, some (.writeRead 0x20#8 [0x07#8] 1, .ok [0x26#8]), some (.byte 0x26#8)) := by decide
/-- S3. -/
theorem test_read_temperature : shows (exec .readTemperature (xfer .readTemperature [.ok 0xFF#8 0x9C#8])) =
    some (.idle, 0x20#8, some (.writeRead 0x20#8 [0x05#8] 2, .ok [0xFF#8, 0x9C#8]), some (.s16 0xFF9C#16)) := by decide
/-- S4. -/
theorem test_read_capacitance : shows (exec .readCapacitance (xfer .readCapacitance [.ok 0x01#8 0x2C#8])) =
    some (.idle, 0x20#8, some (.writeRead 0x20#8 [0x00#8] 2, .ok [0x01#8, 0x2C#8]), some (.u16 0x012C#16)) := by decide
/-- S5. -/
theorem test_read_light : shows (exec .readLight (xfer .readLight [.ok 0x03#8 0xE8#8])) =
    some (.idle, 0x20#8, some (.writeRead 0x20#8 [0x04#8] 2, .ok [0x03#8, 0xE8#8]), some (.u16 0x03E8#16)) := by decide

/-! ### Acceptance, refusal, readings, frames, sequences, text -/

/-- L4: `new` in IDLE is not accepted. -/
theorem test_new_in_idle : nextOf (step (offering 0xE30#12)) = some (offering 0xE30#12) := by decide
/-- L2. -/
theorem test_reset_in_unbound : nextOf (step { State.reset with hostPort := [0x600#12] }) =
    some { State.reset with hostPort := [0x600#12] } := by decide
/-- L7. -/
theorem test_reserved_in_idle : refusalOf (step (offering 0xD00#12)) = some (.reservedCode 0xD#4) := by decide
/-- L8: a bus operation at 0x80 is refused; at 0x7F it is issued. -/
theorem test_address_boundary :
    refusalOf (exec .readVersion { idle with devAddr := 0x80#8 }) = some .addressOutOfRange ∧
    (nextOf (exec .readVersion { idle with devAddr := 0x7F#8 })).map (·.outstanding) =
      some (some (.writeRead 0x7F#8 [0x07#8] 1)) := by decide
/-- V13, V11, V10: signed readings. -/
theorem test_sint16 : [0xFF9C#16, 0x8000#16, 0x7FFF#16, 0xFFFF#16].map sint16 = [-100, -32768, 32767, -1] := by decide
/-- V8, V9: the first byte received is the high byte. -/
theorem test_combine : combine 0x12#8 0x34#8 = 0x1234#16 ∧ (combine 0x34#8 0x12#8).toNat = 13330 := by decide
/-- S2, S5, S4. -/
theorem test_decoded_values : decodedValue .readTemperature (.s16 0x0096#16) = some 15 ∧
    decodedValue .readLight (.u16 0x03E8#16) = some 100 ∧ decodedValue .readCapacitance (.u16 0x012C#16) = some 300 := by
  refine ⟨?_, ?_, ?_⟩ <;> norm_num [decodedValue, sint16, uint16]
  decide
/-- R114 says 15.0 and -10.0 are exact in every binary format: 15 = 15 * 2^20 * 2^-20 and -10 = -10 * 2^20 * 2^-20. -/
theorem test_exact_floats : scaledFloat ⟨24⟩ 150 = ⟨false, 15 * 2 ^ 20, 36⟩ ∧
    scaledFloat ⟨24⟩ (-100) = ⟨true, 10 * 2 ^ 20, 36⟩ := by decide
/-- R114 at a binade's edge, by hand: 2047.2 in 11 bits is 2047, and 0.6 in one bit is 1 * 2^-1. -/
theorem test_float_at_binade_edge : scaledFloat ⟨11⟩ 20472 = ⟨false, 2047, 16⟩ ∧ scaledFloat ⟨1⟩ 6 = ⟨false, 1, 17⟩ := by
  decide
/-- S10: 0x26 is version 2.6, and U14 gives a byte with a nibble above 9 no meaning. -/
theorem test_version : versionNumber 0x26#8 = some (2, 6) ∧ versionNumber 0x99#8 = some (9, 9) ∧
    versionNumber 0x2A#8 = none ∧ versionNumber 0xA2#8 = none ∧ versionMajor 0x26#8 = some 2 ∧
    versionMinor 0x26#8 = some 6 := by decide
/-- R67: the frame [0x06] alone is `reset`; after an Ok-answered [0x01, x] of the same operation it is `set_address(x)`'s. -/
theorem test_second_frame (e : ErrT) :
    operationOf [⟨1, .write 0x20#8 [0x01#8, 0x21#8], .ok []⟩, ⟨1, .write 0x20#8 [0x06#8], .ok []⟩] 1 =
      some (.setAddress 0x21#8) ∧
    operationOf [⟨1, .write 0x20#8 [0x01#8, 0x21#8], .err e⟩, ⟨2, .write 0x20#8 [0x06#8], .ok []⟩] 1 =
      some .reset := ⟨rfl, rfl⟩
/-- P7: a transport error in the middle of polling ends `wait_ready(3)` after two polls. -/
theorem test_wait_ready_err (e : ErrT) :
    (match waitReady 3 { idle with transport := [.ok 0xFF#8 0, .err e, .ok 0 0] } with
      | .err e s => some (e, s.history.length)
      | _ => none) = some (e, 2) := rfl
/-- R57: a light query answered by the reference sensor. -/
theorem test_reference_sensor (e : ErrT) :
    shows (simStep ⟨e, 1⟩ (xfer .readLight []) ⟨0x20#8, none, 0, 0, 0x03E8#16, 0x26#8, 0⟩).1 =
      some (.idle, 0x20#8, some (.writeRead 0x20#8 [0x04#8] 2, .ok [0x03#8, 0xE8#8]), some (.u16 0x03E8#16)) := rfl
/-- R76's own forms. -/
theorem test_text : instrText (.setAddress 0x21#8) = "set_address(0x21)" ∧ instrText .readLight = "read_light()" ∧
    transactionText (.writeRead 0x20#8 [0x09#8] 1) = "WR(0x20,[0x09],1)" ∧ responseText (.bool true) = "Bool(1)" := by
  decide

/-! ### Witnesses: states and operands that meet the hypotheses of each statement -/

/-- The operations with one transaction. -/
def singleOps : List Op :=
  [.reset, .triggerMeasurement, .isBusy, .readVersion, .readTemperature, .readCapacitance, .readLight]

theorem witness_oneTransactionOp_idle : ({ idle with devAddr := 0x7F#8 } : State).phase = .idle ∧
    ({ idle with devAddr := 0x7F#8 } : State).devAddr.toNat ≤ 127 := by decide
theorem witness_oneTransactionOp_answers : ∀ o ∈ singleOps,
    ((xfer o [.ok 0xFF#8 0x9C#8]).phase = .xfer1 ∧ (xfer o [.ok 0xFF#8 0x9C#8]).opLatch = o ∧
      (xfer o [.ok 0xFF#8 0x9C#8]).transport = .ok 0xFF#8 0x9C#8 :: []) ∧
    ((xfer o [.err anError]).phase = .xfer1 ∧ (xfer o [.err anError]).opLatch = o ∧
      (xfer o [.err anError]).transport = .err anError :: []) ∧
    ((xfer o []).phase = .xfer1 ∧ (xfer o []).opLatch = o ∧ (xfer o []).transport = []) := by decide
theorem witness_oneTransactionOp_not_accepted : State.reset.phase = .unbound ∧ (xferReset []).phase = .xfer2 ∧
    ∀ o ∈ singleOps, (xfer .setAddress []).phase = .xfer1 ∧ (xfer .setAddress []).opLatch ≠ o := by decide
theorem witness_CommandArgWholeOrIgnored : decode 0x121#12 = .instr (.setAddress 0x21#8) ∧
    decode 0xE7F#12 = .instr (.new 0x7F#8) ∧ decode 0x6FF#12 = .instr .reset := by decide
theorem witness_ReservedCodesRefused : (offering 0xDFF#12).phase = .idle ∧
    (offering 0xDFF#12).hostPort = 0xDFF#12 :: [] ∧ (0xDFF#12).toNat / 256 ∈ [0x2, 0x8, 0xA, 0xB, 0xC, 0xD] := by decide
theorem witness_HostCodeIsLowNibbleOfRegisterId : (xfer .isBusy []).phase = .xfer1 ∧
    busOp (xfer .isBusy []).opLatch = true := by decide
theorem witness_OutstandingFrameDecodes : (xfer .readLight []).phase = .xfer1 ∧
    (xfer .readLight []).outstanding = some (.writeRead 0x20#8 [0x04#8] 2) ∧
    (xferReset []).phase = .xfer2 ∧ (xferReset []).outstanding = some (.write 0x20#8 [0x06#8]) := by decide
theorem witness_NothingHappensByItself : State.reset.phase = .unbound ∧ State.reset.hostPort = [] ∧
    idle.phase = .idle ∧ idle.hostPort = [] := by decide
theorem witness_StepRunsDecodedInstruction :
    (State.reset.offer (.new 0x20#8)).phase = .unbound ∧
    (State.reset.offer (.new 0x20#8)).hostPort = 0xE20#12 :: [] ∧ decode 0xE20#12 = .instr (.new 0x20#8) ∧
    (offering 0x121#12).phase = .idle ∧ (offering 0x121#12).hostPort = 0x121#12 :: [] ∧
    decode 0x121#12 = .instr (.setAddress 0x21#8) ∧ (∀ a, Instr.setAddress 0x21#8 ≠ .new a) ∧
    (xfer .isBusy []).phase = .xfer1 ∧ busOp (xfer .isBusy []).opLatch = true ∧
    (xferReset []).phase = .xfer2 ∧ (xferReset []).opLatch = .setAddress := by
  refine ⟨by decide, by decide, by decide, by decide, by decide, by decide, (fun _ h => nomatch h), by decide, by decide,
    by decide, by decide⟩
theorem witness_PlacedWordRuns : decodeTableWord 16 0x400 = some .readLight ∧
    decodeTableWord 16 0xEFF = some (.new 0xFF#8) := by decide
theorem witness_UnadmittedCommandHasNoEffect :
    (State.reset.offer .reset).phase = .unbound ∧ (State.reset.offer .reset).hostPort = 0x600#12 :: [] ∧
    (0x600#12).toNat / 256 ≠ 0xE ∧ (offering 0xE30#12).phase = .idle ∧ (offering 0xE30#12).hostPort = 0xE30#12 :: [] ∧
    (0xE30#12).toNat / 256 = 0xE ∧ (xfer .isBusy []).phase = .xfer1 ∧ (xferReset []).phase = .xfer2 := by decide
theorem witness_NewBindsTheEngine : State.reset.phase = .unbound ∧ idle.phase ≠ .unbound := by decide
theorem witness_ReleaseUnbindsTheEngine : idle.phase = .idle ∧ State.reset.phase ≠ .idle := by decide
theorem witness_LifecycleInvisibleToTransport : Instr.new 0x20#8 = .release ∨ (∃ a, Instr.new 0x20#8 = .new a) :=
  .inr ⟨_, rfl⟩
theorem witness_LifecycleFrame : (Instr.release = .release ∨ ∃ a, Instr.release = .new a) ∧
    nextOf (exec .release idle) ≠ none ∧ nextOf (exec (.new 0xFF#8) State.reset) ≠ none :=
  ⟨.inl rfl, by decide, by decide⟩
theorem witness_SetAddressOperation_first : idle.phase = .idle ∧ idle.devAddr.toNat ≤ 127 ∧
    (xfer .setAddress [.ok 0 0]).phase = .xfer1 ∧ (xfer .setAddress [.ok 0 0]).opLatch = .setAddress ∧
    (xfer .setAddress [.ok 0 0]).argLatch = 0x21#8 ∧ (xfer .setAddress [.ok 0 0]).devAddr.toNat ≤ 127 ∧
    (xfer .setAddress [.ok 0 0]).transport = .ok 0 0 :: [] ∧ (xfer .setAddress [.err anError]).transport = .err anError :: [] ∧
    (xfer .setAddress [.err anError]).phase = .xfer1 ∧ (xfer .setAddress [.err anError]).opLatch = .setAddress ∧
    (xfer .setAddress [.err anError]).argLatch = 0x21#8 := by decide
theorem witness_SetAddressOperation_second :
    (xferReset [.ok 0 0]).phase = .xfer2 ∧ (xferReset [.ok 0 0]).opLatch = .setAddress ∧
    (xferReset [.ok 0 0]).argLatch = 0x21#8 ∧ (xferReset [.ok 0 0]).transport = .ok 0 0 :: [] ∧
    (xferReset [.err anError]).phase = .xfer2 ∧ (xferReset [.err anError]).opLatch = .setAddress ∧
    (xferReset [.err anError]).argLatch = 0x21#8 ∧ (xferReset [.err anError]).transport = .err anError :: [] ∧
    (xferReset []).phase = .xfer2 ∧ (xferReset []).transport = [] ∧
    State.reset.phase = .unbound ∧ (xfer .isBusy []).phase = .xfer1 ∧ (xfer .isBusy []).opLatch ≠ .setAddress := by decide
theorem witness_SingleTransactionFrame :
    Instr.readLight ∈ [Instr.reset, .triggerMeasurement, .isBusy, .readVersion, .readTemperature, .readCapacitance,
      .readLight] ∧
    nextOf (exec .readLight (xfer .readLight [.ok 0x03#8 0xE8#8])) ≠ none ∧ nextOf (exec .readLight idle) ≠ none := by
  decide
theorem witness_OutOfRangeAddressRefused :
    ({ idle with devAddr := 0x80#8 } : State).phase = .idle ∧ 127 < ({ idle with devAddr := 0x80#8 } : State).devAddr.toNat ∧
    busOp (opOf .readVersion) = true ∧
    ({ xfer .setAddress [.ok 0 0] with devAddr := 0xFF#8 } : State).phase = .xfer1 ∧
    ({ xfer .setAddress [.ok 0 0] with devAddr := 0xFF#8 } : State).opLatch = .setAddress ∧
    ({ xfer .setAddress [.ok 0 0] with devAddr := 0xFF#8 } : State).argLatch = 0x21#8 ∧
    127 < ({ xfer .setAddress [.ok 0 0] with devAddr := 0xFF#8 } : State).devAddr.toNat ∧
    ({ xfer .setAddress [.ok 0 0] with devAddr := 0xFF#8 } : State).transport = .ok 0 0 :: [] ∧
    State.reset.phase = .unbound ∧ 127 < (0x80#8).toNat := by decide
theorem witness_CombineIsBigEndianBijection : combine 0x12#8 0x34#8 = 0x1234#16 := by decide
theorem witness_SignedAndUnsignedReadings : (0x7F#8).toNat < 0x80 ∧ 0x80 ≤ (0x80#8).toNat ∧
    sint16 0x8000#16 = sint16 0x8000#16 := by decide
theorem witness_FloatResultIsNearest : 1 ≤ 24 ∧ (-32768 : Int) ≠ 0 ∧ (-32768 : Int) ≤ -32768 ∧ (-32768 : Int) ≤ 65535 ∧
    (65535 : Int) ≠ 0 ∧ (-32768 : Int) ≤ 65535 := by decide
theorem witness_TransportErrorEntry :
    (xferReset [.err anError]).outstanding = some (.write 0x20#8 [0x06#8]) ∧
    ((xferReset [.err anError]).phase = .xfer2 → (xferReset [.err anError]).opLatch = .setAddress) ∧
    (xferReset [.err anError]).transport = .err anError :: [] ∧
    (xfer .isBusy [.err anError]).outstanding = some (.writeRead 0x20#8 [0x09#8] 1) ∧
    (xfer .isBusy [.err anError]).transport = .err anError :: [] := by decide
theorem witness_ErrorOnlyFromTransport :
    (nextOf (step (xfer .isBusy [.err anError]))).map (·.responses) = some ((xfer .isBusy [.err anError]).responses ++ [.err anError]) := by
  decide
theorem witness_SilentTransportIsWaitedFor : (xferReset []).outstanding = some (.write 0x20#8 [0x06#8]) ∧
    ((xferReset []).phase = .xfer2 → (xferReset []).opLatch = .setAddress) ∧ (xferReset []).transport = [] := by decide
theorem witness_invariant_at_xfer : (xfer .readLight [.ok 1 2]).Inv ∧ (xferReset [.ok 0 0]).Inv ∧ (offering 0xD00#12).Inv ∧
    nextOf (step (xfer .readLight [.ok 1 2])) ≠ none ∧ nextOf (step (xferReset [.ok 0 0])) ≠ none ∧
    refusalOf (step (offering 0xD00#12)) ≠ none := by decide

/-- A state with one `set_address` half done, whose records explain it. -/
def halfDone : State :=
  { xferReset [.ok 0 0] with accepted := [.new 0x20#8, .setAddress 0x21#8] }

theorem halfDone_inv : halfDone.Inv := by decide
theorem halfDone_explained : halfDone.explained := by
  refine ⟨?_, by decide⟩
  intro j r hj
  match j with
  | 0 => exact ⟨.new 0x20#8, 0, [], ⟨[], .done, 0x20#8, []⟩, by decide, rfl, by decide, by cases hj; rfl⟩
  | j + 1 => cases hj
theorem halfDone_historyDecodes : halfDone.historyDecodes := by
  intro k e hk
  match k with
  | 0 => cases hk; decide
  | k + 1 => cases hk
theorem witness_ResponsesExplainedByHistory : halfDone.Inv ∧ halfDone.explained ∧ nextOf (step halfDone) ≠ none :=
  ⟨halfDone_inv, halfDone_explained, by decide⟩
theorem witness_HistoryDecodesToOperations :
    halfDone.Inv ∧ halfDone.explained ∧ halfDone.historyDecodes ∧ nextOf (step halfDone) ≠ none :=
  ⟨halfDone_inv, halfDone_explained, halfDone_historyDecodes, by decide⟩
/-- For the three statements over every step that gives a next state: steps that write DEV_ADDR at each of its two places. -/
theorem witness_steps : (nextOf (step (State.reset.offer (.new 0x7F#8)))).map (·.devAddr) = some 0x7F#8 ∧
    (nextOf (step halfDone)).map (fun s => (s.devAddr, s.phase)) = some (0x21#8, .idle) := by decide
theorem witness_OperationRunsAsBlockingCall :
    (∃ c, callSpec (.setAddress 0x21#8) 0x20#8 [.ok 0 0, .err anError] = some c ∧ c.response = .err anError) ∧
    ({ offering 0x121#12 with transport := [.ok 0 0, .err anError] } : State).phase = .idle ∧
    ({ offering 0x121#12 with transport := [.ok 0 0, .err anError] } : State).devAddr = 0x20#8 ∧
    ({ offering 0x121#12 with transport := [.ok 0 0, .err anError] } : State).hostPort = 0x121#12 :: [] ∧
    decode 0x121#12 = .instr (.setAddress 0x21#8) ∧ busOp (opOf (.setAddress 0x21#8)) = true :=
  ⟨⟨_, rfl, rfl⟩, by decide, by decide, by decide, by decide, by decide⟩
theorem witness_AddressUpdateIsAtomic :
    ({ offering 0x121#12 with transport := [.ok 0 0, .ok 0 0] } : State).phase = .idle ∧
    ({ offering 0x121#12 with transport := [.ok 0 0, .ok 0 0] } : State).hostPort = encode (.setAddress 0x21#8) :: [] ∧
    (nextOf (Host.Core.run Sys2Proof.core 3 { offering 0x121#12 with transport := [.ok 0 0, .ok 0 0] })).map
      (fun t => (t.responses, t.devAddr)) = some ([.done, .done], 0x21#8) ∧
    (nextOf (Host.Core.run Sys2Proof.core 3 { offering 0x121#12 with transport := [.ok 0 0, .err anError] })).map
      (fun t => (t.responses, t.devAddr)) = some ([.done, .err anError], 0x20#8) := by decide
theorem witness_DeadLatchesNeverRead :
    State.sameButDeadLatches idle { idle with opLatch := .setAddress, argLatch := 0xFF#8 } ∧
    State.sameButDeadLatches (xfer .isBusy []) { xfer .isBusy [] with argLatch := 0xFF#8 } :=
  ⟨⟨rfl, fun h => nomatch h⟩, ⟨rfl, fun _ => ⟨rfl, fun h => nomatch h⟩⟩⟩
theorem witness_ResponsesDoNotRevealAddress :
    State.sameButAddr (offering 0x400#12) { offering 0x400#12 with devAddr := 0x7F#8 } := ⟨by decide, rfl, rfl⟩
theorem witness_WaitReadyIssuesAtMostBound : idle.phase.inTransfer = false ∧
    (seqState (waitReady 2 { idle with transport := [.ok 1 0, .ok 1 0] })).map (·.history.length) = some 2 := by decide
theorem witness_WaitReadyReportsFirstZeroByte : ({ idle with transport := [.ok 1 0, .ok 0 0] } : State).phase = .idle ∧
    ({ idle with transport := [.ok 1 0, .ok 0 0] } : State).hostPort = [] ∧
    (match waitReady 2 { idle with transport := [.ok 1 0, .ok 0 0] } with
      | .ready i _ => some i
      | _ => none) = some 2 := by decide
/-- The three outcomes at the boundary values: a first poll of 0x00 with bound 1, an error at the last poll, a bound used up. -/
theorem witness_WaitReadyReportsFirstZeroByte_outcomes : idle.phase = .idle ∧ idle.devAddr.toNat ≤ 127 ∧
    (∀ p ∈ ([] : List (Byte × Byte)), p.1 ≠ 0x00#8) ∧ (∀ p ∈ [(0x80#8, 0x00#8)], p.1 ≠ 0x00#8) ∧
    ({ idle with transport := [.ok 0 0xFF#8] } : State).transport = pollAnswers [] ++ .ok 0x00#8 0xFF#8 :: [] ∧
    ({ idle with transport := [.ok 0x80#8 0, .err anError] } : State).transport =
      pollAnswers [(0x80#8, 0x00#8)] ++ .err anError :: [] ∧
    ({ idle with transport := [.ok 0x80#8 0] } : State).transport = pollAnswers [(0x80#8, 0x00#8)] ++ [] :=
  ⟨rfl, by decide, by simp, by simp, rfl, rfl, rfl⟩
theorem witness_MeasureAndReadLightReturnsLastReading_completes :
    ({ idle with transport := [.ok 0 0, .ok 0x80#8 0, .ok 0 0, .ok 0x03#8 0xE8#8] } : State).transport =
      .ok 0 0 :: (pollAnswers [(0x80#8, 0x00#8)] ++ .ok 0x00#8 0 :: .ok 0x03#8 0xE8#8 :: []) := rfl
theorem witness_MeasureAndReadLightReturnsLastReading :
    (match measureAndReadLight 1 { idle with transport := [.ok 0 0, .ok 0 0, .ok 0x03#8 0xE8#8] } with
      | .value r _ => some r
      | _ => none) = some (.u16 0x03E8#16) := by decide
/-- A busy sensor at address 0x20 that has been triggered. -/
def busySensor : Sensor := ⟨0x20#8, none, true, true, 0x03E8#16, 0, 0, 0x26#8⟩

theorem witness_UnboundedPollingMayHang : idle.phase = .idle ∧ idle.devAddr.toNat ≤ 127 ∧
    (∀ i : Nat, ∃ r0 r1, (fun _ => Draw.ok 0x80#8 0x00#8) i = .ok r0 r1 ∧ r0 ≠ 0x00#8) ∧
    busySensor.busy = true ∧ busySensor.known = true :=
  ⟨rfl, by decide, fun _ => ⟨_, _, rfl, by decide⟩, rfl, rfl⟩
/-- A sensor busy at the first poll and settled from then on. -/
theorem witness_PollingEndsWhereTheSensorSettles : idle.phase = .idle ∧ idle.devAddr.toNat ≤ 127 ∧
    polledSensor idle.devAddr (fun i => if i = 0 then .ok 0x01#8 0 else .ok 0x00#8 0)
      (fun i => if i = 0 then busySensor else { busySensor with busy := false }) ∧
    sensorSettlesFairly (fun i => if i = 0 then busySensor else { busySensor with busy := false }) ∧
    (∀ (i : Nat) (e : ErrT), (if i = 0 then Draw.ok 0x01#8 0 else .ok 0x00#8 0) ≠ .err e) := by
  refine ⟨rfl, by decide, ?_, fun i => ⟨i + 1, by omega, rfl⟩, fun i e => by split <;> simp⟩
  rintro (_ | i)
  · exact ⟨rfl, busySensor,
      query_unchanged_allowed (x := busySensor) rfl ⟨[0x01#8], rfl, by simp [queryBytes, busySensor]⟩,
      .move (.refl _) (.inl ⟨rfl, rfl, rfl, noResetCycle_self _⟩)⟩
  · exact ⟨rfl, { busySensor with busy := false },
      query_unchanged_allowed (x := { busySensor with busy := false }) rfl ⟨[0x00#8], rfl, by simp [queryBytes]⟩, .refl _⟩
theorem witness_FreshReadFollowsTriggerAndSettling :
    safeRun ([.performed .triggerMeasurement .done, .performed .isBusy (.bool false)] ++
      [.performed .readLight (.u16 0x03E8#16)]) = true := by decide
/-- The same by waiting, for the other two readings. -/
theorem witness_FreshReadFollowsTriggerAndSettling_waited :
    safeRun ([.performed .triggerMeasurement .done, .waited Config.settleMillis] ++
      [.performed .readTemperature (.s16 0xFF9C#16)]) = true ∧
    safeRun ([.performed .triggerMeasurement .done, .waited Config.settleMillis] ++
      [.performed .readCapacitance (.u16 0x012C#16)]) = true := by
  simp [safeRun, legalEvent, Instr.wellFormed, freshReads, freshnessAfter, readsFresh]

end Sys2Proof.Tests
end

section
/-! The step in a closed form, for all results and not only for next states: in UNBOUND and IDLE by the operation admitted,
in XFER1 and XFER2 as one consumption of the outstanding transaction's answer. -/

namespace Sys2Proof.Machine

/-- No transaction is outstanding exactly in UNBOUND and IDLE (R35). -/
theorem Phase.inTransfer_eq_false_iff (p : Phase) : p.inTransfer = false ↔ p = .unbound ∨ p = .idle := by
  cases p <;> simp

/-- What `new(a)` leaves in UNBOUND (R80). -/
def State.bindTo (a : Byte) (s : State) : State := ({ s.accept (.new a) with devAddr := a }).respond .done

/-- What `release()` leaves in IDLE (R82). -/
def State.unbind (s : State) : State := ({ s.accept .release with phase := .unbound }).emit .done

/-- A bus operation is accepted, and its first transaction is outstanding (R16, R35). -/
def State.startTransfer (i : Instr) (s : State) : State :=
  { s.accept i with argLatch := argAfter i s.argLatch, phase := .xfer1 }

/-- `set_address` ends with success: DEV_ADDR takes the operand (R94, R95). -/
def State.adoptAddress (s : State) : State := ({ s with devAddr := s.argLatch }).respond .done

/-- How the operation `op`, in the PHASE `p`, goes on from an `Ok` answer with the bytes read (R14, R94, R116). -/
def afterOk (p : Phase) (op : Op) (r0 r1 : Byte) (s : State) : Result :=
  if op = .setAddress then
    if p = .xfer1 then issue .xfer2 s else .next s.adoptAddress
  else .next (s.respond (responseTo op r0 r1))

theorem afterOk_single {p : Phase} {op : Op} (ho : op ≠ .setAddress) (r0 r1 : Byte) (s : State) :
    afterOk p op r0 r1 s = .next (s.respond (responseTo op r0 r1)) := if_neg ho

theorem afterOk_setAddress_xfer1 (r0 r1 : Byte) (s : State) :
    afterOk .xfer1 .setAddress r0 r1 s = issue .xfer2 s := rfl

theorem afterOk_setAddress_xfer2 (r0 r1 : Byte) (s : State) :
    afterOk .xfer2 .setAddress r0 r1 s = .next s.adoptAddress := rfl

theorem exec_new_unbound {a : Byte} {s : State} (hp : s.phase = .unbound) : exec (.new a) s = .next (s.bindTo a) := by
  simp only [exec, execNew, hp, State.bindTo]

theorem exec_release_idle {s : State} (hp : s.phase = .idle) : exec .release s = .next s.unbind := by
  simp only [exec, execRelease, hp, State.unbind]

/-- With `set_address` latched, the operation in progress is `set_address` of ARG_LATCH (R16). -/
theorem inProgress_setAddress {s : State} (ho : s.opLatch = .setAddress) : s.inProgress = .setAddress s.argLatch := by
  simp [State.inProgress, ho, latchedInstr]

/-- While PHASE and OP_LATCH name a transaction, a step consumes its answer (R35). -/
theorem step_transfer {s : State} (ht : s.phase.inTransfer = true) (hs : s.sequencerLegal) :
    ∃ x, s.outstanding = some x ∧ step s = onAnswer x (afterOk s.phase s.opLatch) s := by
  obtain ⟨h1, h2⟩ := hs
  obtain hp | hp := (Phase.inTransfer_iff _).mp ht
  · by_cases ho : s.opLatch = .setAddress
    · refine ⟨_, outstanding_setAddress1 hp ho, ?_⟩
      rw [step_xfer1 hp (h1 hp), execSetAddress_xfer1 hp ho, hp, ho]
      rfl
    · obtain ⟨x, hx, he⟩ := exec_inProgress hp (h1 hp) ho
      refine ⟨x, hx, ?_⟩
      rw [step_xfer1 hp (h1 hp), he]
      congr 1
      funext r0 r1 s'
      rw [afterOk_single ho]
  · refine ⟨_, outstanding_xfer2 hp, ?_⟩
    rw [step_xfer2 hp (h2 hp), execSetAddress_xfer2 hp (h2 hp), hp, h2 hp]
    rfl

/-- Where they name none, the step is the fault `sequencer` (log 12). -/
theorem step_transfer_stuck {s : State} (ht : s.phase.inTransfer = true) (hs : ¬ s.sequencerLegal) :
    step s = .fault .sequencer := by
  obtain hp | hp := (Phase.inTransfer_iff _).mp ht
  · exact step_xfer1_stuck hp (by simpa [hp] using hs)
  · exact step_xfer2_stuck hp (by simpa [hp] using hs)

end Sys2Proof.Machine
end

section
/-! Relational rules: when do two states step to results of one kind that are again related? One rule for the PHASEs in which
the port is looked at, one for those in which an answer is awaited. -/

namespace Sys2Proof.Machine

variable {R : State → State → Prop} {s t : State}

theorem resultsRelated_next {r : Result} (h : resultsRelated R (.next s) r) : ∃ t, r = .next t ∧ R s t := by
  cases r with
  | next t => exact ⟨t, rfl, h⟩
  | fault | refused => exact h.elim

theorem resultsRelated_fault {r : Result} {f : Fault} (h : resultsRelated R (.fault f) r) : r = .fault f := by
  cases r with
  | fault g => exact congrArg _ h.symm
  | next | refused => exact h.elim

theorem resultsRelated_refused {r : Result} {q : Refusal} (h : resultsRelated R (.refused q) r) : r = .refused q := by
  cases r with
  | refused q' => exact congrArg _ h.symm
  | next | fault => exact h.elim

theorem issue_related {p : Phase} (hl : legalAddr s.devAddr = legalAddr t.devAddr)
    (h : R { s with phase := p } { t with phase := p }) : resultsRelated R (issue p s) (issue p t) := by
  cases ha : legalAddr s.devAddr with
  | true => rw [issue_of_legal ha, issue_of_legal (hl ▸ ha)]; exact h
  | false => rw [issue_of_illegal ha, issue_of_illegal (hl ▸ ha)]; rfl

/-- In UNBOUND and IDLE two related states with one port step to related results, if the three updates that acceptance can
make keep the relation. -/
theorem step_offered_related (hR : R s t) (ht : s.phase.inTransfer = false) (hp : s.phase = t.phase)
    (hw : s.hostPort = t.hostPort) (hl : legalAddr s.devAddr = legalAddr t.devAddr)
    (bind : ∀ a ws, R (State.bindTo a { s with hostPort := ws }) (State.bindTo a { t with hostPort := ws }))
    (unbind : ∀ ws, R (State.unbind { s with hostPort := ws }) (State.unbind { t with hostPort := ws }))
    (start : ∀ i ws,
      R (State.startTransfer i { s with hostPort := ws }) (State.startTransfer i { t with hostPort := ws })) :
    resultsRelated R (step s) (step t) := by
  have hs : s.phase = .unbound ∨ s.phase = .idle := (Phase.inTransfer_eq_false_iff _).mp ht
  have ht' : t.phase = .unbound ∨ t.phase = .idle := hp ▸ hs
  cases hsw : s.hostPort with
  | nil => rw [step_nothing_offered hs hsw, step_nothing_offered ht' (hw ▸ hsw)]; exact hR
  | cons w ws =>
    have htw : t.hostPort = w :: ws := hw ▸ hsw
    cases hd : decode w with
    | reserved c =>
      obtain h | h := hs
      · rw [step_reserved_unbound h hsw hd, step_reserved_unbound (hp ▸ h) htw hd]; exact hR
      · rw [step_reserved_idle h hsw hd, step_reserved_idle (hp ▸ h) htw hd]; rfl
    | instr i =>
      cases ha : admits s.phase i with
      | false => rw [step_unadmitted hs hsw hd ha, step_unadmitted ht' htw hd (hp ▸ ha)]; exact hR
      | true =>
        rw [step_admitted hs hsw hd ha, step_admitted ht' htw hd (hp ▸ ha)]
        obtain h | h := hs
        · obtain ⟨a, rfl⟩ := admits_unbound_iff.mp (h ▸ ha)
          rw [exec_new_unbound (s := { s with hostPort := ws }) h,
            exec_new_unbound (s := { t with hostPort := ws }) (hp ▸ h)]
          exact bind a ws
        · obtain rfl | hb := admits_idle_iff.mp (h ▸ ha)
          · rw [exec_release_idle (s := { s with hostPort := ws }) h,
              exec_release_idle (s := { t with hostPort := ws }) (hp ▸ h)]
            exact unbind ws
          · rw [exec_idle (s := { s with hostPort := ws }) h hb,
              exec_idle (s := { t with hostPort := ws }) (hp ▸ h) hb]
            exact issue_related hl (start i ws)

/-- In XFER1 and XFER2 two related states with one operation latched and one supply of answers step to related results, if
the three ways to go on from an answer keep the relation. The port is not looked at. -/
theorem step_transfer_related (hR : R s t) (ht : s.phase.inTransfer = true) (hp : s.phase = t.phase)
    (ho : s.opLatch = t.opLatch) (hd : s.transport = t.transport) (hl : legalAddr s.devAddr = legalAddr t.devAddr)
    (respond : ∀ x y d ds r, s.outstanding = some x → t.outstanding = some y →
      R ((s.record x d ds).respond r) ((t.record y d ds).respond r))
    (reissue : ∀ x y d ds, s.outstanding = some x → t.outstanding = some y → s.opLatch = .setAddress →
      R { s.record x d ds with phase := .xfer2 } { t.record y d ds with phase := .xfer2 })
    (adopt : ∀ x y d ds, s.outstanding = some x → t.outstanding = some y → s.opLatch = .setAddress →
      R (s.record x d ds).adoptAddress (t.record y d ds).adoptAddress) :
    resultsRelated R (step s) (step t) := by
  have hseq : s.sequencerLegal ↔ t.sequencerLegal := by simp only [State.sequencerLegal, hp, ho]
  by_cases hs : s.sequencerLegal
  · obtain ⟨x, hx, hsx⟩ := step_transfer ht hs
    obtain ⟨y, hy, hty⟩ := step_transfer (hp ▸ ht) (hseq.mp hs)
    rw [hsx, hty, ← hp, ← ho]
    match hsd : s.transport with
    | [] => rw [onAnswer_silent hsd, onAnswer_silent (hd ▸ hsd)]; exact hR
    | .err e :: ds => rw [onAnswer_err hsd, onAnswer_err (hd ▸ hsd)]; exact respond x y _ ds _ hx hy
    | .ok r0 r1 :: ds =>
      rw [onAnswer_ok hsd, onAnswer_ok (hd ▸ hsd)]
      by_cases h : s.opLatch = .setAddress
      · rw [h]
        obtain hp1 | hp2 := (Phase.inTransfer_iff _).mp ht
        · rw [hp1, afterOk_setAddress_xfer1, afterOk_setAddress_xfer1]
          exact issue_related hl (reissue x y _ ds hx hy h)
        · rw [hp2, afterOk_setAddress_xfer2, afterOk_setAddress_xfer2]
          exact adopt x y _ ds hx hy h
      · rw [afterOk_single h, afterOk_single h]
        exact respond x y _ ds _ hx hy
  · rw [step_transfer_stuck ht hs, step_transfer_stuck (hp ▸ ht) (hseq.not.mp hs)]
    rfl

end Sys2Proof.Machine
end

section
/-! R16: the latches are not read where they are dead. -/

namespace Sys2Proof.Machine

/-- The relation as an update: the second state is the first with other latches. -/
theorem sameButDeadLatches_iff {s t : State} : s.sameButDeadLatches t ↔
    ∃ o a, t = { s with opLatch := o, argLatch := a } ∧
      (s.phase.inTransfer = true → s.opLatch = o ∧ (s.opLatch = .setAddress → s.argLatch = a)) := by
  constructor
  · rintro ⟨h, hl⟩
    exact ⟨t.opLatch, t.argLatch, h.symm, hl⟩
  · rintro ⟨o, a, rfl, hl⟩
    exact ⟨rfl, hl⟩

/-- Acceptance of `set_address` loads ARG_LATCH, whatever it held (R16, R94). -/
theorem argAfter_setAddress {i : Instr} (hi : opOf i = .setAddress) (a b : Byte) : argAfter i a = argAfter i b := by
  cases i with
  | setAddress x => rfl
  | _ => cases hi

/-- The outstanding transaction does not depend on a dead ARG_LATCH (R16). -/
theorem outstanding_setArgLatch {s : State} {a : Byte} (h : s.opLatch = .setAddress → s.argLatch = a) :
    ({ s with argLatch := a } : State).outstanding = s.outstanding := by
  by_cases ho : s.opLatch = .setAddress
  · obtain rfl := h ho
    rfl
  · cases hp : s.phase with
    | unbound => simp only [State.outstanding, hp]
    | idle => simp only [State.outstanding, hp]
    | xfer2 => simp only [State.outstanding, hp, memWrite]
    | xfer1 => cases hx : s.opLatch <;> simp_all [State.outstanding, memWrite, memRead]

/-- Settles O47, by the relational rule of each PHASE: acceptance loads what the operation will read. -/
theorem deadLatchesNeverRead : Obligations.DeadLatchesNeverRead := by
  intro s t h
  obtain ⟨o, a, rfl, hlive⟩ := sameButDeadLatches_iff.mp h
  cases ht : s.phase.inTransfer with
  | false =>
    refine step_offered_related h ht rfl rfl rfl ?_ ?_ ?_
    · intro a' ws
      exact sameButDeadLatches_iff.mpr ⟨_, _, rfl, fun hT => nomatch hT⟩
    · intro ws
      exact sameButDeadLatches_iff.mpr ⟨_, _, rfl, fun hT => nomatch hT⟩
    · intro i ws
      exact sameButDeadLatches_iff.mpr ⟨_, _, rfl, fun _ => ⟨rfl, fun hi => argAfter_setAddress hi _ _⟩⟩
  | true =>
    obtain ⟨rfl, harg⟩ := hlive ht
    refine step_transfer_related h ht rfl rfl rfl rfl ?_ ?_ ?_
    · intro x y d ds r hx hy
      obtain rfl : x = y := Option.some.inj (hx.symm.trans ((outstanding_setArgLatch harg).symm.trans hy))
      exact sameButDeadLatches_iff.mpr ⟨_, _, rfl, fun hT => nomatch hT⟩
    · intro x y d ds hx hy ho
      obtain rfl := harg ho
      obtain rfl : x = y := Option.some.inj (hx.symm.trans hy)
      exact sameButDeadLatches_iff.mpr ⟨_, _, rfl, fun _ => ⟨rfl, fun _ => rfl⟩⟩
    · intro x y d ds hx hy ho
      obtain rfl := harg ho
      obtain rfl : x = y := Option.some.inj (hx.symm.trans hy)
      exact sameButDeadLatches_iff.mpr ⟨_, _, rfl, fun hT => nomatch hT⟩

end Sys2Proof.Machine
end

section
/-! R13: the host cannot read DEV_ADDR back. -/

namespace Sys2Proof.Machine

/-- The relation as an update: the second state is the first with another DEV_ADDR and other addresses in its history. -/
theorem sameButAddr_iff {s t : State} : s.sameButAddr t ↔
    ∃ b h, t = { s with devAddr := b, history := h } ∧ legalAddr s.devAddr = legalAddr b ∧
      s.history.map eraseAddr = h.map eraseAddr := by
  constructor
  · rintro ⟨hl, hh, ht⟩
    exact ⟨t.devAddr, t.history, ht.symm, hl, hh⟩
  · rintro ⟨b, h, rfl, hl, hh⟩
    exact ⟨hl, hh, rfl⟩

/-- The transaction with its bus address replaced. -/
def readdress (b : Byte) : Transaction → Transaction
  | .write _ data => .write b data
  | .writeRead _ data n => .writeRead b data n

@[simp] theorem readLen_readdress (b : Byte) (x : Transaction) : readLen (readdress b x) = readLen x := by
  cases x <;> rfl

@[simp] theorem eraseAddr_readdress (n : Nat) (b : Byte) (x : Transaction) (ans : Answer) :
    eraseAddr ⟨n, readdress b x, ans⟩ = eraseAddr ⟨n, x, ans⟩ := by
  cases x <;> rfl

/-- DEV_ADDR decides the address of the outstanding transaction and nothing else of it (R10). -/
theorem outstanding_setDevAddr (s : State) (b : Byte) (h : List Entry) :
    ({ s with devAddr := b, history := h } : State).outstanding = s.outstanding.map (readdress b) := by
  cases hp : s.phase with
  | unbound => simp [State.outstanding, hp]
  | idle => simp [State.outstanding, hp]
  | xfer2 => simp [State.outstanding, hp, memWrite, readdress]
  | xfer1 => cases ho : s.opLatch <;> simp [State.outstanding, hp, ho, memWrite, memRead, readdress]

/-- Recording the same answer to the two outstanding transactions keeps the histories alike. -/
theorem record_history_erased {s : State} {b : Byte} {h : List Entry} {x y : Transaction} (d : Draw) (ds : List Draw)
    (hh : s.history.map eraseAddr = h.map eraseAddr) (hx : s.outstanding = some x)
    (hy : ({ s with devAddr := b, history := h } : State).outstanding = some y) :
    (s.record x d ds).history.map eraseAddr =
      (State.record y d ds { s with devAddr := b, history := h }).history.map eraseAddr := by
  rw [outstanding_setDevAddr, hx] at hy
  obtain rfl : readdress b x = y := Option.some.inj hy
  simp [hh]

/-- Settles O48, by the relational rule of each PHASE: DEV_ADDR reaches the addresses in the history only, and its legality
decides a refusal. -/
theorem responsesDoNotRevealAddress : Obligations.ResponsesDoNotRevealAddress := by
  intro s t hR
  obtain ⟨b, h, rfl, hl, hh⟩ := sameButAddr_iff.mp hR
  cases ht : s.phase.inTransfer with
  | false =>
    refine step_offered_related hR ht rfl rfl hl ?_ ?_ ?_
    · exact fun a ws => sameButAddr_iff.mpr ⟨_, _, rfl, rfl, hh⟩
    · exact fun ws => sameButAddr_iff.mpr ⟨_, _, rfl, hl, hh⟩
    · exact fun i ws => sameButAddr_iff.mpr ⟨_, _, rfl, hl, hh⟩
  | true =>
    refine step_transfer_related hR ht rfl rfl rfl hl ?_ ?_ ?_
    · exact fun x y d ds r hx hy => sameButAddr_iff.mpr ⟨_, _, rfl, hl, record_history_erased d ds hh hx hy⟩
    · exact fun x y d ds hx hy _ => sameButAddr_iff.mpr ⟨_, _, rfl, hl, record_history_erased d ds hh hx hy⟩
    · exact fun x y d ds hx hy _ => sameButAddr_iff.mpr ⟨_, _, rfl, rfl, record_history_erased d ds hh hx hy⟩

end Sys2Proof.Machine
end

section
/-! The invariant of the machine, part by part, each kept by every step. -/

namespace Sys2Proof.Machine

variable {s t : State}

theorem State.Inv.sequencerLegal (h : s.Inv) : s.sequencerLegal := h.1
theorem State.Inv.addressLegal (h : s.Inv) : s.addressLegal := h.2.1
theorem State.Inv.alternates (h : s.Inv) : s.alternates := h.2.2.1
theorem State.Inv.historyLegal (h : s.Inv) : s.historyLegal := h.2.2.2

/-- Acceptance of a bus operation leaves the latches that name it (R16). -/
theorem latchedInstr_argAfter {i : Instr} (hb : busOp (opOf i) = true) (a : Byte) :
    latchedInstr (opOf i) (argAfter i a) = i := by
  cases i with
  | new | release => cases hb
  | _ => rfl

/-- In UNBOUND and IDLE no response is owed (R73). -/
theorem State.alternates.settled (h : s.alternates) (hp : s.phase.inTransfer = false) :
    s.accepted.length = s.responses.length := by simpa [hp] using h.1

/-- In XFER1 and XFER2 one response is owed (R73). -/
theorem State.alternates.owed (h : s.alternates) (hp : s.phase.inTransfer = true) :
    s.accepted.length = s.responses.length + 1 := by simpa [hp] using h.1

/-- While a transaction is outstanding, the command accepted last is the operation in progress (R16). -/
theorem State.alternates.last (h : s.alternates) (hp : s.phase.inTransfer = true) :
    s.accepted.getLast? = some s.inProgress := h.2 hp

theorem outstanding_transfer {x : Transaction} (h : s.outstanding = some x) : s.phase.inTransfer = true :=
  (Phase.inTransfer_iff _).mpr (outstanding_inTransfer h)

/-- Every outstanding transaction is one of the engine's frames (R60, R67). -/
theorem outstanding_isFrame {x : Transaction} (h : s.outstanding = some x) : (busDecode x).isSome = true := by
  obtain hp | hp := outstanding_inTransfer h
  · rw [outstanding_busDecode hp h]; rfl
  · obtain rfl := Option.some.inj ((outstanding_xfer2 hp).symm.trans h)
    rfl

/-- A draw answers with as many bytes as are read, up to two (R33). -/
theorem drawAnswer_fits {n : Nat} (hn : n ≤ 2) (d : Draw) : answerFits n (drawAnswer n d) = true := by
  cases h : drawAnswer n d with
  | ok bytes => simpa [answerFits] using drawAnswer_ok_length hn h
  | err e => rfl

/-- An entry stays legal when more commands are accepted. -/
theorem entryLegal_mono {m n : Nat} {e : Entry} (hmn : m ≤ n) (h : entryLegal m e) : entryLegal n e :=
  ⟨h.1.trans_le hmn, h.2⟩

/-- The line that a step adds is legal: the outstanding transaction, for the command that is owed a response, with a fitting
answer. -/
theorem outstanding_entryLegal (h : s.Inv) {x : Transaction} (hx : s.outstanding = some x) (d : Draw) :
    entryLegal s.accepted.length ⟨s.responses.length, x, drawAnswer (readLen x) d⟩ := by
  have ht := outstanding_transfer hx
  refine ⟨?_, ?_, outstanding_isFrame hx, drawAnswer_fits (outstanding_readLen hx) d⟩
  · exact (h.alternates.owed ht).symm ▸ Nat.lt_succ_self _
  · exact (outstanding_addr hx).symm ▸ h.addressLegal ht

/-- A history whose lines are legal stays so with the line that a step adds. -/
theorem append_entriesLegal (h : s.Inv) {x : Transaction} (hx : s.outstanding = some x) (d : Draw) :
    ∀ e ∈ s.history ++ [⟨s.responses.length, x, drawAnswer (readLen x) d⟩], entryLegal s.accepted.length e := by
  intro e he
  obtain he | he := List.mem_append.mp he
  · exact h.historyLegal.1 e he
  · obtain rfl := List.mem_singleton.mp he
    exact outstanding_entryLegal h hx d

theorem step_keeps_sequencerLegal (h : s.sequencerLegal) (hs : StepTo s t) : t.sequencerLegal := by
  cases hs with
  | wait => exact h
  | issued i w ws hp hw hd hb hl => exact ⟨fun _ => hb, nofun⟩
  | reissued r0 r1 ds hp ho hl hd => exact ⟨nofun, fun _ => ho⟩
  | new | release | failed | finished | updated => exact ⟨nofun, nofun⟩

theorem step_keeps_addressLegal (h : s.addressLegal) (hs : StepTo s t) : t.addressLegal := by
  cases hs with
  | wait => exact h
  | issued i w ws hp hw hd hb hl => exact fun _ => hl
  | reissued r0 r1 ds hp ho hl hd => exact fun _ => hl
  | new | release | failed | finished | updated => exact nofun

/-- A command is accepted only when no response is owed, and a response is given only to a command that is owed one. -/
theorem step_keeps_alternates (h : s.alternates) (hs : StepTo s t) : t.alternates := by
  cases hs with
  | wait => exact h
  | new a w ws hp hw hd =>
    have := h.settled (by rw [hp]; rfl)
    exact ⟨by simpa using this, nofun⟩
  | release w ws hp hw hd =>
    have := h.settled (by rw [hp]; rfl)
    exact ⟨by simpa using this, nofun⟩
  | issued i w ws hp hw hd hb hl =>
    have := h.settled (by rw [hp]; rfl)
    exact ⟨by simpa using this, fun _ => by simp [State.inProgress, latchedInstr_argAfter hb]⟩
  | failed x e ds hx h2 hd =>
    have := h.owed (outstanding_transfer hx)
    exact ⟨by simpa using this, nofun⟩
  | finished x r0 r1 ds hp hx ho hd =>
    have := h.owed (outstanding_transfer hx)
    exact ⟨by simpa using this, nofun⟩
  | reissued r0 r1 ds hp ho hl hd =>
    have ht : s.phase.inTransfer = true := by rw [hp]; rfl
    exact ⟨by simpa using h.owed ht, fun _ => h.last ht⟩
  | updated r0 r1 ds hp ho hd =>
    have := h.owed (by rw [hp]; rfl)
    exact ⟨by simpa using this, nofun⟩

theorem step_keeps_historyLegal (h : s.Inv) (hs : StepTo s t) : t.historyLegal := by
  obtain ⟨hlines, hlast⟩ := h.historyLegal
  have hmore : ∀ i : Instr, ∀ e ∈ s.history, entryLegal (s.accepted ++ [i]).length e :=
    fun i e he => entryLegal_mono (by simp) (hlines e he)
  cases hs with
  | wait => exact ⟨hlines, hlast⟩
  | new | release | issued => exact ⟨hmore _, nofun⟩
  | failed x e ds hx h2 hd => exact ⟨append_entriesLegal h hx (.err e), nofun⟩
  | finished x r0 r1 ds hp hx ho hd => exact ⟨append_entriesLegal h hx (.ok r0 r1), nofun⟩
  | reissued r0 r1 ds hp ho hl hd =>
    exact ⟨append_entriesLegal h (outstanding_setAddress1 hp ho) (.ok r0 r1), fun _ => List.getLast?_concat⟩
  | updated r0 r1 ds hp ho hd => exact ⟨append_entriesLegal h (outstanding_xfer2 hp) (.ok r0 r1), nofun⟩

/-- Settles O38: each of the four parts is kept, by the case analysis of what a step can do. -/
theorem stepKeepsInvariant : Obligations.StepKeepsInvariant := by
  intro s t h hstep
  have hs := step_cases hstep
  exact ⟨step_keeps_sequencerLegal h.sequencerLegal hs, step_keeps_addressLegal h.addressLegal hs,
    step_keeps_alternates h.alternates hs, step_keeps_historyLegal h hs⟩

/-- Settles O37: at reset every record is empty and no transaction is outstanding. -/
theorem invariantAtReset : Obligations.InvariantAtReset := by
  refine ⟨by decide, ⟨?_, rfl⟩, ?_⟩
  · intro j r hr
    cases hr
  · intro k e he
    cases he

end Sys2Proof.Machine
end

section
/-! What the step leaves in DEV_ADDR, PHASE and the history, case by case of `step_cases`. -/

namespace Sys2Proof.Machine

/-- Settles O42, over the cases of a step: two of them load DEV_ADDR. -/
theorem deviceAddressWrittenAtTwoPlaces : Obligations.DeviceAddressWrittenAtTwoPlaces := by
  intro s t h
  cases step_cases h with
  | new a w ws hp hw hd => exact .inr (.inl ⟨hp, rfl, rfl⟩)
  | updated r0 r1 ds hp ho hd => exact .inr (.inr ⟨hp, ho, rfl, rfl, rfl, r0, r1, hd⟩)
  | wait | release | issued | failed | finished | reissued => exact .inl rfl

/-- Settles O43, over the cases of a step; an outstanding transaction places `failed` in XFER1 or XFER2. -/
theorem phaseMovesAsStated : Obligations.PhaseMovesAsStated := by
  intro s t h
  cases step_cases h with
  | wait => exact .inl rfl
  | new a w ws hp hw hd => exact .inr (.inl ⟨hp, rfl, a, rfl⟩)
  | release w ws hp hw hd => exact .inr (.inr (.inl ⟨hp, rfl, rfl⟩))
  | issued i w ws hp hw hd hb hl => exact .inr (.inr (.inr (.inl ⟨hp, rfl, i, hb, rfl⟩)))
  | failed x e ds hx h2 hd =>
    obtain hp | hp := outstanding_inTransfer hx
    · exact .inr (.inr (.inr (.inr (.inl ⟨hp, rfl, rfl⟩))))
    · exact .inr (.inr (.inr (.inr (.inr (.inr ⟨hp, rfl, rfl⟩)))))
  | finished x r0 r1 ds hp hx ho hd => exact .inr (.inr (.inr (.inr (.inl ⟨hp, rfl, rfl⟩))))
  | reissued r0 r1 ds hp ho hl hd => exact .inr (.inr (.inr (.inr (.inr (.inl ⟨hp, rfl, ho, rfl⟩)))))
  | updated r0 r1 ds hp ho hd => exact .inr (.inr (.inr (.inr (.inr (.inr ⟨hp, rfl, rfl⟩)))))

/-- A step either leaves transport and history alone, or takes one draw and records it as the answer to the outstanding
transaction (R22, R35). -/
theorem StepTo.history_cases {s t : State} (h : StepTo s t) :
    (t.history = s.history ∧ t.transport = s.transport) ∨
    ∃ x d, s.outstanding = some x ∧ s.transport = d :: t.transport ∧
      t.history = s.history ++ [⟨s.responses.length, x, drawAnswer (readLen x) d⟩] := by
  cases h with
  | wait | new | release | issued => exact .inl ⟨rfl, rfl⟩
  | failed x e ds hx h2 hd => exact .inr ⟨x, .err e, hx, hd, rfl⟩
  | finished x r0 r1 ds hp hx ho hd => exact .inr ⟨x, .ok r0 r1, hx, hd, rfl⟩
  | reissued r0 r1 ds hp ho hl hd => exact .inr ⟨_, .ok r0 r1, outstanding_setAddress1 hp ho, hd, rfl⟩
  | updated r0 r1 ds hp ho hd => exact .inr ⟨_, .ok r0 r1, outstanding_xfer2 hp, hd, rfl⟩

/-- Settles O44: the line added is the outstanding transaction with what the draw answers to it. -/
theorem historyGrowsByTheAnsweredTransaction : Obligations.HistoryGrowsByTheAnsweredTransaction := by
  intro s t h
  obtain hsame | ⟨x, d, hx, hd, hh⟩ := (step_cases h).history_cases
  · exact .inl hsame
  · refine .inr ⟨x, d, _, hx, outstanding_addr hx, hd, hh, fun e => drawAnswer_err_iff.symm, ?_, ?_⟩
    · exact fun bytes => drawAnswer_ok_length (outstanding_readLen hx)
    · rintro r0 r1 rfl
      rfl

end Sys2Proof.Machine
end

section
/-! What a word at the port does, by its decoding and the PHASE. -/

namespace Sys2Proof.Machine

/-- Settles O7: the reset state's own fields. -/
theorem powerOnResetState : Obligations.PowerOnResetState := ⟨rfl, rfl, rfl, rfl, rfl⟩

/-- Settles O9: the step in each PHASE; in UNBOUND and IDLE the operations named are those that PHASE admits. -/
theorem stepRunsDecodedInstruction : Obligations.StepRunsDecodedInstruction := by
  refine ⟨?_, ?_, fun s hp hb => step_xfer1 hp hb, ?_⟩
  · intro s w ws a hp hw hd
    exact step_admitted (.inl hp) hw hd (hp ▸ admits_unbound_iff.mpr ⟨a, rfl⟩)
  · intro s w ws i hp hw hd hi
    have ha : admits s.phase i = true := by
      rw [hp]
      cases i with
      | new a => exact absurd rfl (hi a)
      | _ => rfl
    exact step_admitted (.inr hp) hw hd ha
  · intro s hp ho
    rw [step_xfer2 hp ho, inProgress_setAddress ho]

/-- A table word is a command word that decodes to an operation (log 23). -/
theorem decode_of_decodeTableWord {nbits w : Nat} {i : Instr} (h : decodeTableWord nbits w = some i) :
    decode (BitVec.ofNat 12 w) = .instr i := by
  unfold decodeTableWord at h
  split at h
  · split at h
    · rename_i hd
      rw [hd, Option.some.inj h]
    · cases h
  · cases h

/-- The PHASE that `placeWord` chooses goes by the host code of the operation. -/
theorem placeWord_of_decode {w : CmdWord} {i : Instr} (h : decode w = .instr i) (s : State) :
    placeWord w s =
      { s with hostPort := w :: s.hostPort, phase := if hostCode i = 0xE#4 then .unbound else .idle } := by
  rw [placeWord, cmdOp_of_decode h]

/-- Settles O10: the placed word is at the port's head, in a PHASE that admits its operation. -/
theorem placedWordRuns : Obligations.PlacedWordRuns := by
  intro s nbits w i h
  have hd := decode_of_decodeTableWord h
  have runs : ∀ p, (p = .unbound ∨ p = .idle) → admits p i = true →
      (if hostCode i = 0xE#4 then Phase.unbound else .idle) = p →
      step (s.withFetchWord nbits w) = exec i { s with phase := p } := by
    intro p hp ha hcode
    rw [State.withFetchWord, placeWord_of_decode hd, hcode]
    exact step_admitted hp rfl hd ha
  cases i with
  | new a => exact runs .unbound (.inl rfl) rfl rfl
  | _ => exact runs .idle (.inr rfl) rfl rfl

/-- The words with cmd_op 0xE are those of `new` (R70). -/
theorem decode_eq_new_iff {w : CmdWord} : (∃ a, decode w = .instr (.new a)) ↔ w.toNat / 256 = 0xE := by
  constructor
  · rintro ⟨a, h⟩
    rw [← cmdOp_toNat, cmdOp_of_decode h]
    rfl
  · intro h
    exact ⟨cmdArg w, by simp [decode, cmdOp_toNat, h]⟩

/-- While a transaction is outstanding, a step leaves the port alone (R15). -/
theorem StepTo.hostPort_of_transfer {s t : State} (h : StepTo s t) (ht : s.phase.inTransfer = true) :
    t.hostPort = s.hostPort := by
  cases h with
  | new a w ws hp hw hd => rw [hp] at ht; cases ht
  | release w ws hp hw hd => rw [hp] at ht; cases ht
  | issued i w ws hp hw hd hb hl => rw [hp] at ht; cases ht
  | wait | failed | finished | reissued | updated => rfl

/-- While a transaction is outstanding, the step is the same, but for the port, whatever stands at it (R15). -/
theorem step_port_irrelevant {s : State} (ht : s.phase.inTransfer = true) (ws : List CmdWord) :
    resultsRelated (fun u v => v = { u with hostPort := ws }) (step s) (step { s with hostPort := ws }) := by
  have same : ∀ {x y : Transaction}, s.outstanding = some x →
      ({ s with hostPort := ws } : State).outstanding = some y → x = y :=
    fun hx hy => Option.some.inj (hx.symm.trans hy)
  refine step_transfer_related rfl ht rfl rfl rfl rfl ?_ ?_ ?_
  · intro x y d ds r hx hy
    rw [same hx hy]; rfl
  · intro x y d ds hx hy _
    rw [same hx hy]; rfl
  · intro x y d ds hx hy _
    rw [same hx hy]; rfl

/-- Settles O11: in UNBOUND and IDLE by what PHASE admits, in XFER1 and XFER2 since the port is not looked at. -/
theorem unadmittedCommandHasNoEffect : Obligations.UnadmittedCommandHasNoEffect := by
  refine ⟨?_, ?_, ?_⟩
  · intro s w ws hp hw hne
    cases hd : decode w with
    | reserved c => exact step_reserved_unbound hp hw hd
    | instr i =>
      refine step_unadmitted (.inl hp) hw hd (Bool.eq_false_iff.mpr fun ha => ?_)
      obtain ⟨a, rfl⟩ := admits_unbound_iff.mp (hp ▸ ha)
      exact hne (decode_eq_new_iff.mp ⟨a, hd⟩)
  · intro s w ws hp hw he
    obtain ⟨a, hd⟩ := decode_eq_new_iff.mpr he
    exact step_unadmitted (.inr hp) hw hd (by rw [hp]; rfl)
  · intro s ws hp
    have ht := (Phase.inTransfer_iff _).mpr hp
    have hrel := step_port_irrelevant ht ws
    cases hs : step s with
    | next t =>
      obtain ⟨t', ht', rfl⟩ := resultsRelated_next (hs ▸ hrel)
      exact ⟨(step_cases hs).hostPort_of_transfer ht, ht'⟩
    | fault f => exact resultsRelated_fault (hs ▸ hrel)
    | refused r => exact resultsRelated_refused (hs ▸ hrel)

/-- An address above 127 is not legal (R12). -/
theorem legalAddr_eq_false_iff {a : Byte} : legalAddr a = false ↔ 127 < a.toNat := by
  simp [legalAddr]

/-- Settles O25: every transaction goes through `issue`, and `new` and `release` do not. -/
theorem outOfRangeAddressRefused : Obligations.OutOfRangeAddressRefused := by
  refine ⟨?_, ?_, ?_⟩
  · intro i s hp ha hb
    rw [exec_idle hp hb]
    exact issue_of_illegal (legalAddr_eq_false_iff.mpr ha)
  · rintro x r0 r1 s ds hp ho rfl ha hd
    rw [← inProgress_setAddress ho, execSetAddress_xfer1 hp ho, onAnswer_ok hd]
    exact issue_of_illegal (legalAddr_eq_false_iff.mpr ha)
  · intro a s hp ha
    exact ⟨_, exec_new_unbound hp, rfl, rfl, _, exec_release_idle rfl, rfl, rfl⟩

end Sys2Proof.Machine
end

section
/-! The answer to the outstanding transaction, taken in one step (R35). -/

namespace Sys2Proof.Machine

variable {s : State} {x : Transaction} {ds : List Draw}

/-- While a transaction is outstanding, a step consumes its answer, whatever its operation and its PHASE (R35). -/
theorem step_of_outstanding (hs : s.sequencerLegal) (hx : s.outstanding = some x) :
    step s = onAnswer x (afterOk s.phase s.opLatch) s := by
  obtain ⟨y, hy, h⟩ := step_transfer (outstanding_transfer hx) hs
  obtain rfl := Option.some.inj (hx.symm.trans hy)
  exact h

theorem step_takes_err {e : ErrT} (hs : s.sequencerLegal) (hx : s.outstanding = some x)
    (hd : s.transport = .err e :: ds) : step s = .next ((s.record x (.err e) ds).raiseTransportError e) :=
  (step_of_outstanding hs hx).trans (onAnswer_err hd)

theorem step_takes_ok {r0 r1 : Byte} (hs : s.sequencerLegal) (hx : s.outstanding = some x)
    (hd : s.transport = .ok r0 r1 :: ds) :
    step s = afterOk s.phase s.opLatch r0 r1 (s.record x (.ok r0 r1) ds) :=
  (step_of_outstanding hs hx).trans (onAnswer_ok hd)

/-- A bus operation run in IDLE with a legal DEV_ADDR has its first transaction issued (R12, R35). -/
theorem exec_idle_starts {i : Instr} (hp : s.phase = .idle) (hb : busOp (opOf i) = true)
    (hl : legalAddr s.devAddr = true) : exec i s = .next (s.startTransfer i) :=
  (exec_idle hp hb).trans (issue_of_legal hl)

theorem startTransfer_sequencerLegal {i : Instr} (hb : busOp (opOf i) = true) :
    (s.startTransfer i).sequencerLegal := ⟨fun _ => hb, nofun⟩

end Sys2Proof.Machine
end

section
/-! The operation table (R66) against the engine's own tables: frames, result lengths and decodings. -/

namespace Sys2Proof.Machine

/-- The two bytes as one number, the high-order byte first (R110). -/
theorem combine_toNat (hi lo : Byte) : (combine hi lo).toNat = hi.toNat * 256 + lo.toNat := by
  rw [combine, BitVec.toNat_append, ← Nat.shiftLeft_add_eq_or_of_lt lo.isLt, Nat.shiftLeft_eq]

theorem combine_eq_ofNat (hi lo : Byte) : combine hi lo = BitVec.ofNat 16 (hi.toNat * 256 + lo.toNat) := by
  rw [← combine_toNat, BitVec.ofNat_toNat, BitVec.setWidth_eq]

/-- Every nonzero byte is busy, and no other (R101). -/
theorem busyBit_eq_decide (r0 : Byte) : busyBit r0 = decide (r0.toNat ≠ 0) := by
  rw [Bool.eq_iff_iff, decide_eq_true_iff, busyBit, bne_iff_ne]
  exact BitVec.toNat_inj.symm.not

/-- A bus operation other than `set_address` is, in the operation table, one call of the transaction that the engine has
outstanding, with the bytes the engine records and the response it gives (R66, R116). -/
theorem callSpec_single {i : Instr} (hb : busOp (opOf i) = true) (ho : opOf i ≠ .setAddress) (s : State) :
    ∃ x, (s.startTransfer i).outstanding = some x ∧ ∀ ds, callSpec i s.devAddr ds =
      callOne s.devAddr x (fun r0 r1 => [r0, r1].take (readLen x)) (responseTo (opOf i)) ds := by
  cases i with
  | new | release => cases hb
  | setAddress => exact absurd rfl ho
  | isBusy => exact ⟨_, rfl, fun ds => by simp only [callSpec, ← busyBit_eq_decide]; rfl⟩
  | readTemperature | readCapacitance | readLight =>
    exact ⟨_, rfl, fun ds => by simp only [callSpec, ← combine_eq_ofNat]; rfl⟩
  | reset | triggerMeasurement | readVersion => exact ⟨_, rfl, fun ds => rfl⟩

/-- A call of one transaction that returns has taken one answer, an error or a success. -/
theorem callOne_cases {a : Byte} {t : Transaction} {bs : Byte → Byte → List Byte} {r : Byte → Byte → Response}
    {ds : List Draw} {c : Call} (h : callOne a t bs r ds = some c) :
    (∃ e rest, ds = .err e :: rest ∧ c = ⟨[(t, .err e)], .err e, a, rest⟩) ∨
    (∃ r0 r1 rest, ds = .ok r0 r1 :: rest ∧ c = ⟨[(t, .ok (bs r0 r1))], r r0 r1, a, rest⟩) := by
  match ds with
  | [] => cases h
  | .err e :: rest => cases h; exact .inl ⟨e, rest, rfl, rfl⟩
  | .ok r0 r1 :: rest => cases h; exact .inr ⟨r0, r1, rest, rfl, rfl⟩

/-- A `set_address` call that returns is one of the three rows of R94's outcome table. -/
theorem callSetAddress_cases {x a : Byte} {ds : List Draw} {c : Call} (h : callSetAddress x a ds = some c) :
    (∃ e rest, ds = .err e :: rest ∧ c = ⟨[(.write a [0x01#8, x], .err e)], .err e, a, rest⟩) ∨
    (∃ r0 r1 e rest, ds = .ok r0 r1 :: .err e :: rest ∧
      c = ⟨[(.write a [0x01#8, x], .ok []), (.write a [0x06#8], .err e)], .err e, a, rest⟩) ∨
    (∃ r0 r1 q0 q1 rest, ds = .ok r0 r1 :: .ok q0 q1 :: rest ∧
      c = ⟨[(.write a [0x01#8, x], .ok []), (.write a [0x06#8], .ok [])], .done, x, rest⟩) := by
  match ds with
  | [] => cases h
  | .err e :: rest => cases h; exact .inl ⟨e, rest, rfl, rfl⟩
  | [.ok r0 r1] => cases h
  | .ok r0 r1 :: .err e :: rest => cases h; exact .inr (.inl ⟨r0, r1, e, rest, rfl, rfl⟩)
  | .ok r0 r1 :: .ok q0 q1 :: rest => cases h; exact .inr (.inr ⟨r0, r1, q0, q1, rest, rfl, rfl⟩)

end Sys2Proof.Machine
end

section
/-! R46: an operation runs as one blocking call. The run that follows acceptance takes one step for each transaction of the
call. -/

namespace Sys2Proof.Machine

variable {s : State} {c : Call}

/-- IDLE admits every operation but `new` (R14). -/
theorem admits_idle_of_ne_new {i : Instr} (hi : ∀ a, i ≠ .new a) : admits .idle i = true := by
  cases i with
  | new a => exact absurd rfl (hi a)
  | _ => rfl

/-- Where the call `c` of the bus operation `i` leaves the engine, from the state in which `i` has left the port. -/
def State.afterCall (i : Instr) (c : Call) (s : State) : State :=
  { s with
    devAddr := c.devAddr, phase := .idle, opLatch := opOf i, argLatch := argAfter i s.argLatch, transport := c.rest
    history := s.history ++ c.entries.map (fun p => ⟨s.responses.length, p.1, p.2⟩)
    accepted := s.accepted ++ [i], responses := s.responses ++ [c.response] }

/-- The two lines of a call join the history one after the other (R22). -/
theorem afterCall_pair (i : Instr) (p q : Transaction × Answer) (r : Response) (a : Byte) (rest : List Draw) :
    s.afterCall i ⟨[p, q], r, a, rest⟩ = { s.afterCall i ⟨[p], r, a, rest⟩ with
      history := s.history ++ [⟨s.responses.length, p.1, p.2⟩] ++ [⟨s.responses.length, q.1, q.2⟩] } := by
  simp [State.afterCall]

/-- An operation of one transaction ends in the step that takes its answer. -/
theorem run_single {i : Instr} (hb : busOp (opOf i) = true) (ho : opOf i ≠ .setAddress)
    (hc : callSpec i s.devAddr s.transport = some c) :
    Host.Core.run Sys2Proof.core c.entries.length (s.startTransfer i) = .next (s.afterCall i c) := by
  obtain ⟨x, hx, hcall⟩ := callSpec_single hb ho s
  have hs := startTransfer_sequencerLegal (s := s) hb
  obtain ⟨e, rest, hd, rfl⟩ | ⟨r0, r1, rest, hd, rfl⟩ := callOne_cases ((hcall s.transport).symm.trans hc)
  · exact run_succ_next 0 (step_takes_err hs hx hd)
  · exact run_succ_next 0 ((step_takes_ok hs hx hd).trans (afterOk_single ho r0 r1 _))

/-- The state in which `set_address(x)` has written the address and has its reset write outstanding (R94). -/
def State.addressWritten (x : Byte) (rest : List Draw) (s : State) : State :=
  { s.startTransfer (.setAddress x) with
    phase := .xfer2, transport := rest
    history := s.history ++ [⟨s.responses.length, .write s.devAddr [0x01#8, x], .ok []⟩] }

theorem addressWritten_sequencerLegal {x : Byte} {rest : List Draw} : (s.addressWritten x rest).sequencerLegal :=
  ⟨nofun, fun _ => rfl⟩

/-- The step that takes the success of the address write issues the reset write (R94, R97). -/
theorem step_addressWritten {x r0 r1 : Byte} {rest : List Draw} (hl : legalAddr s.devAddr = true)
    (hd : s.transport = .ok r0 r1 :: rest) :
    step (s.startTransfer (.setAddress x)) = .next (s.addressWritten x rest) :=
  (step_takes_ok (startTransfer_sequencerLegal rfl) (outstanding_setAddress1 rfl rfl) hd).trans (issue_of_legal hl)

/-- `set_address` ends in the step that takes the answer to its last transaction, the first if that failed (R94). -/
theorem run_setAddress {x : Byte} (hl : legalAddr s.devAddr = true)
    (hc : callSetAddress x s.devAddr s.transport = some c) :
    Host.Core.run Sys2Proof.core c.entries.length (s.startTransfer (.setAddress x)) =
      .next (s.afterCall (.setAddress x) c) := by
  obtain ⟨e, rest, hd, rfl⟩ | ⟨r0, r1, e, rest, hd, rfl⟩ | ⟨r0, r1, q0, q1, rest, hd, rfl⟩ := callSetAddress_cases hc
  · exact run_succ_next 0 (step_takes_err (startTransfer_sequencerLegal rfl) (outstanding_setAddress1 rfl rfl) hd)
  · rw [afterCall_pair]
    exact (run_succ_next 1 (step_addressWritten hl hd)).trans
      (run_succ_next 0 (step_takes_err addressWritten_sequencerLegal (outstanding_xfer2 rfl) rfl))
  · rw [afterCall_pair]
    exact (run_succ_next 1 (step_addressWritten hl hd)).trans
      (run_succ_next 0 (step_takes_ok addressWritten_sequencerLegal (outstanding_xfer2 rfl) rfl))

/-- After the acceptance of a bus operation, the run takes one step for each transaction of its call (R35, R46). -/
theorem run_startTransfer {i : Instr} (hb : busOp (opOf i) = true) (hl : legalAddr s.devAddr = true)
    (hc : callSpec i s.devAddr s.transport = some c) :
    Host.Core.run Sys2Proof.core c.entries.length (s.startTransfer i) = .next (s.afterCall i c) := by
  cases i with
  | setAddress x => exact run_setAddress hl hc
  | _ => exact run_single hb nofun hc

end Sys2Proof.Machine
end

section
/-! R46 and R66: the machine against the operation table. -/

namespace Sys2Proof.Machine

/-- Settles O45: `release` ends in the step that accepts it; a bus operation goes on with one step for each transaction of its
call. -/
theorem operationRunsAsBlockingCall : Obligations.OperationRunsAsBlockingCall := by
  intro s w ws i c hp hl hw hd hi hc
  have ha := admits_idle_of_ne_new hi
  have hstep : step s = exec i { s with hostPort := ws } := step_admitted (.inr hp) hw hd (hp ▸ ha)
  refine ⟨1 + c.entries.length, ?_⟩
  obtain rfl | hb := admits_idle_iff.mp ha
  · obtain rfl := Option.some.inj hc
    exact ⟨_, rfl, run_succ_next 0 (hstep.trans (exec_release_idle hp)), rfl, rfl, rfl, rfl,
      (List.append_nil _).symm, rfl, rfl⟩
  · have hstart := hstep.trans (exec_idle_starts hp hb (decide_eq_true hl))
    have hne : i ≠ .release := by rintro rfl; cases hb
    have hrun := run_startTransfer (s := { s with hostPort := ws }) hb (decide_eq_true hl) hc
    rw [Nat.add_comm]
    exact ⟨_, rfl, (run_succ_next _ hstart).trans hrun, (if_neg hne).symm, rfl, rfl, rfl, rfl, rfl, rfl⟩

end Sys2Proof.Machine
end

section
/-! The command word as its two fields: the decoder against the encoder (R70, R71), and the reserved codes (R75). -/

namespace Sys2Proof

/-- The operation with `arg` as its operand, where it has one (R71). -/
def Instr.withOperand (arg : Byte) : Instr → Instr
  | .new _ => .new arg
  | .setAddress _ => .setAddress arg
  | i => i

@[simp] theorem withOperand_hostArg (i : Instr) : i.withOperand (hostArg i) = i := by cases i <;> rfl

/-- A command word is its two fields side by side (R70). -/
theorem cmdWord_cmdOp_cmdArg (w : CmdWord) : cmdWord (cmdOp w) (cmdArg w) = w := by
  apply BitVec.eq_of_toNat_eq
  rw [Laws.HostWord.word_toNat, cmdOp_toNat, cmdArg_toNat]
  exact Nat.div_add_mod' _ _

/-- A word with the host code of `i` decodes to `i`, with cmd_arg as its operand where it has one (R70, R71). -/
theorem decode_hostCode (i : Instr) (arg : Byte) :
    decode (cmdWord (hostCode i) arg) = .instr (i.withOperand arg) := by
  unfold decode
  rw [cmdOp_cmdWord, cmdArg_cmdWord]
  cases i <;> rfl

/-- The operand of a decoded operation is the word's cmd_arg (R71). -/
theorem eq_withOperand_of_decode {w : CmdWord} {i : Instr} (h : decode w = .instr i) :
    i = i.withOperand (cmdArg w) := by
  have hw := decode_hostCode i (cmdArg w)
  rw [← cmdOp_of_decode h, cmdWord_cmdOp_cmdArg, h] at hw
  exact Decoded.instr.inj hw

/-- Settles O1: the word has the operation's host code, and its cmd_arg is the operand. -/
theorem commandWordRoundTrip : Obligations.CommandWordRoundTrip := by
  intro i
  rw [encode, decode_hostCode, withOperand_hostArg]

/-- Settles O2: cmd_op alone names the operation, and cmd_arg alone its operand. -/
theorem commandArgWholeOrIgnored : Obligations.CommandArgWholeOrIgnored := by
  intro w i arg h
  constructor
  · rw [cmdOp_of_decode h, decode_hostCode]
    cases i <;> rfl
  · have hi := eq_withOperand_of_decode h
    rintro a (rfl | rfl)
    · rw [Instr.new.inj hi, cmdArg_toNat]
    · rw [Instr.setAddress.inj hi, cmdArg_toNat]

/-- The six codes decode to no operation (R75). -/
theorem decode_reserved {w : CmdWord} (h : w.toNat / 256 ∈ [0x2, 0x8, 0xA, 0xB, 0xC, 0xD]) :
    decode w = .reserved (cmdOp w) := by
  rw [← cmdOp_toNat] at h
  unfold decode
  simp only [List.mem_cons, List.not_mem_nil, or_false] at h
  obtain h | h | h | h | h | h := h <;> simp only [h]

/-- Every other code decodes to an operation (R70, R75). -/
theorem reserved_code_of_decode {w : CmdWord} {c : BitVec 4} (h : decode w = .reserved c) :
    w.toNat / 256 ∈ [0x2, 0x8, 0xA, 0xB, 0xC, 0xD] := by
  have hlt := (cmdOp w).isLt
  rw [← cmdOp_toNat]
  unfold decode at h
  split at h <;> cases h
  simp only [imp_false, List.mem_cons, List.not_mem_nil, or_false] at *
  omega

end Sys2Proof
end

section
/-! What is refused (R75, U1, U2), and that nothing faults (log 12). -/

namespace Sys2Proof.Machine

variable {s : State}

/-- Settles O3: the six codes are those of no operation; the step in IDLE is the model's law of a reserved word. -/
theorem reservedCodesRefused : Obligations.ReservedCodesRefused := by
  refine ⟨fun w => ⟨fun ⟨c, h⟩ => reserved_code_of_decode h, fun h => ⟨_, decode_reserved h⟩⟩, ?_⟩
  intro s w ws hp hw h
  rw [step_reserved_idle hp hw (decode_reserved h), ← cmdOp_toNat, BitVec.ofNat_toNat, BitVec.setWidth_eq]

/-- Under the invariant every step in XFER1 and XFER2 gives a next state: DEV_ADDR is legal where the second transaction of
`set_address` is issued (R12, R14). -/
theorem step_transfer_next (h : s.Inv) (ht : s.phase.inTransfer = true) : ∃ t, step s = .next t := by
  obtain ⟨x, -, hstep⟩ := step_transfer ht h.sequencerLegal
  rw [hstep]
  match hd : s.transport with
  | [] => exact ⟨_, onAnswer_silent hd⟩
  | .err e :: ds => exact ⟨_, onAnswer_err hd⟩
  | .ok r0 r1 :: ds =>
    rw [onAnswer_ok hd]
    by_cases ho : s.opLatch = .setAddress
    · rw [ho]
      obtain hp | hp := (Phase.inTransfer_iff _).mp ht
      · rw [hp, afterOk_setAddress_xfer1]
        exact ⟨_, issue_of_legal (h.addressLegal ht)⟩
      · rw [hp, afterOk_setAddress_xfer2]
        exact ⟨_, rfl⟩
    · exact ⟨_, afterOk_single ho r0 r1 _⟩

/-- The two refusals of the spec: a reserved code offered in IDLE (U2), or a bus operation offered in IDLE while DEV_ADDR is
above 127 (U1). -/
def State.specRefuses (s : State) (r : Refusal) : Prop :=
  s.phase = .idle ∧ ∃ w ws, s.hostPort = w :: ws ∧
    ((∃ c, r = .reservedCode c ∧ decode w = .reserved c) ∨
      (r = .addressOutOfRange ∧ 127 < s.devAddr.toNat ∧ ∃ i, decode w = .instr i ∧ busOp (opOf i) = true))

/-- In UNBOUND and IDLE a step gives a next state, or it is refused for a reason of the spec. -/
theorem step_offered_next_or_refused (ht : s.phase.inTransfer = false) :
    (∃ t, step s = .next t) ∨ ∃ r, step s = .refused r ∧ s.specRefuses r := by
  have hs := (Phase.inTransfer_eq_false_iff _).mp ht
  cases hw : s.hostPort with
  | nil => exact .inl ⟨_, step_nothing_offered hs hw⟩
  | cons w ws =>
    cases hd : decode w with
    | reserved c =>
      obtain hp | hp := hs
      · exact .inl ⟨_, step_reserved_unbound hp hw hd⟩
      · exact .inr ⟨_, step_reserved_idle hp hw hd, hp, w, ws, hw, .inl ⟨c, rfl, hd⟩⟩
    | instr i =>
      cases ha : admits s.phase i with
      | false => exact .inl ⟨_, step_unadmitted hs hw hd ha⟩
      | true =>
        rw [step_admitted hs hw hd ha]
        obtain hp | hp := hs
        · obtain ⟨a, rfl⟩ := admits_unbound_iff.mp (hp ▸ ha)
          exact .inl ⟨_, exec_new_unbound hp⟩
        · obtain rfl | hb := admits_idle_iff.mp (hp ▸ ha)
          · exact .inl ⟨_, exec_release_idle hp⟩
          · cases hl : legalAddr s.devAddr with
            | true => exact .inl ⟨_, exec_idle_starts (s := { s with hostPort := ws }) hp hb hl⟩
            | false =>
              refine .inr ⟨.addressOutOfRange, ?_, hp, w, ws, hw, .inr ⟨rfl, legalAddr_eq_false_iff.mp hl, i, hd, hb⟩⟩
              exact (exec_idle (s := { s with hostPort := ws }) hp hb).trans (issue_of_illegal hl)

/-- Settles O39: a transfer always goes on, and what the port offers is refused for the two reasons only. -/
theorem onlyTheRefusalsOfTheSpec : Obligations.OnlyTheRefusalsOfTheSpec := by
  intro s h
  have hall : (∃ t, step s = .next t) ∨ ∃ r, step s = .refused r ∧ s.specRefuses r := by
    cases ht : s.phase.inTransfer with
    | true => exact .inl (step_transfer_next h ht)
    | false => exact step_offered_next_or_refused ht
  obtain ⟨t, hstep⟩ | ⟨r, hstep, hr⟩ := hall <;> rw [hstep]
  · exact ⟨nofun, nofun⟩
  · refine ⟨nofun, fun r' hr' => ?_⟩
    obtain rfl := Host.Outcome.refused.inj hr'
    exact hr

end Sys2Proof.Machine
end

section
/-! The outstanding frame against the host encoding and the four formats (R60, R66, R70). -/

namespace Sys2Proof.Machine

variable {s : State}

/-- The host code is the high part of the command word (R70). -/
theorem encode_div_eq_hostCode (i : Instr) : (encode i).toNat / 256 = (hostCode i).toNat := by
  rw [← cmdOp_toNat, cmdOp_encode]

/-- The first register id that a bus operation puts on the bus (R66). -/
def firstRegId : Op → Option RegId
  | .new | .release => none
  | .reset => some .reset
  | .triggerMeasurement => some .measure
  | .setAddress => some .addr
  | .isBusy => some .busy
  | .readVersion => some .version
  | .readTemperature => some .temp
  | .readCapacitance => some .cap
  | .readLight => some .light

theorem firstRegId_of_busOp {op : Op} (hb : busOp op = true) : ∃ id, firstRegId op = some id := by
  cases op with
  | new | release => cases hb
  | _ => exact ⟨_, rfl⟩

/-- In XFER1 the outstanding frame begins with the first register id of the operation in OP_LATCH (R14, R66). -/
theorem outstanding_firstRegId {id : RegId} (hp : s.phase = .xfer1) (hid : firstRegId s.opLatch = some id) :
    (∃ payload, s.outstanding = some (memWrite id payload s)) ∨ s.outstanding = some (memRead id s) := by
  cases ho : s.opLatch <;> rw [ho] at hid <;> cases hid
  case setAddress => exact .inl ⟨some s.argLatch, by simp only [State.outstanding, hp, ho]⟩
  case reset | triggerMeasurement => exact .inl ⟨none, by simp only [State.outstanding, hp, ho]⟩
  all_goals exact .inr (by simp only [State.outstanding, hp, ho])

/-- The host code of a bus operation is the low nibble of its first register id (R66, R70). -/
theorem hostCode_eq_firstRegId_nibble {i : Instr} {id : RegId} (hid : firstRegId (opOf i) = some id) :
    (hostCode i).toNat = (regIdCode id).toNat % 16 := by
  cases i <;> cases hid <;> rfl

/-- Settles O4: the outstanding frame begins with the operation's first register id, whose low nibble is the host code. -/
theorem hostCodeIsLowNibbleOfRegisterId : Obligations.HostCodeIsLowNibbleOfRegisterId := by
  refine ⟨fun s hp hb => ?_, fun a => Laws.HostWord.word_toNat 0xE#4 a, encode_div_eq_hostCode .release⟩
  obtain ⟨id, hid⟩ := firstRegId_of_busOp hb
  have hcode : (encode s.inProgress).toNat / 256 = (regIdCode id).toNat % 16 := by
    rw [encode_div_eq_hostCode, hostCode_eq_firstRegId_nibble ((opOf_inProgress s).symm ▸ hid)]
  obtain ⟨payload, hx⟩ | hx := outstanding_firstRegId hp hid
  · exact ⟨s.devAddr, regIdCode id, payload.toList, 0, .inl hx, hcode⟩
  · exact ⟨s.devAddr, regIdCode id, [], regIdResultLen id, .inr hx, hcode⟩

/-- What decodes to an operation has one of the four formats (R60, R67). -/
theorem frameFormat_of_busDecode {x : Transaction} (h : (busDecode x).isSome = true) :
    (frameFormat x).isSome = true := by
  match x with
  | .write _ [] | .write _ (_ :: _ :: _ :: _) => cases h
  | .write _ [_] | .write _ [_, _] => rfl
  | .writeRead _ [] _ | .writeRead _ (_ :: _ :: _) _ => cases h
  | .writeRead _ [_] n =>
    by_cases h1 : n = 1
    · simp [frameFormat, h1]
    · by_cases h2 : n = 2
      · simp [frameFormat, h2]
      · simp [busDecode, h1, h2] at h

/-- Settles O6: the frame decodes to an operation and so has a format; in XFER2 it is the reset write. -/
theorem outstandingFrameDecodes : Obligations.OutstandingFrameDecodes := by
  intro s x hx
  refine ⟨outstanding_addr hx, frameFormat_of_busDecode (outstanding_isFrame hx),
    fun hp => outstanding_busDecode hp hx, fun hp => ?_⟩
  obtain rfl := Option.some.inj ((outstanding_xfer2 hp).symm.trans hx)
  exact ⟨rfl, rfl⟩

end Sys2Proof.Machine
end

section
/-! The tables of the encoding: the vectors' words, the register ids, the response port. -/

namespace Sys2Proof.Machine

/-- Settles O5: the decoder on the words of the vectors. -/
theorem vectorWordsDecode : Obligations.VectorWordsDecode := by
  unfold Obligations.VectorWordsDecode
  decide

theorem mem_regIdAll (r : RegId) : r ∈ regIdAll := by cases r <;> decide

/-- No two register ids share a value: the table's values have no duplicate (R64). -/
theorem regIdCode_injective : Function.Injective regIdCode := by
  have hnodup : (regIdAll.map regIdCode).Nodup := by decide
  intro r q h
  exact List.inj_on_of_nodup_map hnodup (mem_regIdAll r) (mem_regIdAll q) h

/-- Settles O26: the table's eight rows, with every id among them and no value twice. -/
theorem registerIdTable : Obligations.RegisterIdTable :=
  ⟨rfl, mem_regIdAll, fun _ _ h => regIdCode_injective h⟩

theorem rspOk_eq_false_iff {r : Response} : (responsePort r).rspOk = false ↔ ∃ e, r = .err e := by
  cases r <;> simp [responsePort]

theorem rspErr_eq_some_iff {r : Response} {e : ErrT} : (responsePort r).rspErr = some e ↔ r = .err e := by
  cases r <;> simp [responsePort]

/-- rsp_data, response by response: the zero-extended number for `Bool` and `Byte`, the raw pattern for `S16` and `U16`. -/
theorem rspData_eq_some_iff {r : Response} {v : Half} : (responsePort r).rspData = some v ↔
    (∃ b : Bool, r = .bool b ∧ v.toNat = (if b then 1 else 0)) ∨ (∃ x : Byte, r = .byte x ∧ v.toNat = x.toNat) ∨
      r = .s16 v ∨ r = .u16 v := by
  cases r with
  | done | err e => simp [responsePort]
  | s16 u | u16 u => simp [responsePort]
  | bool b => cases b <;> simp [responsePort, ← BitVec.toNat_inj, eq_comm]
  | byte x =>
    have hx : BitVec.setWidth 16 x = v ↔ v.toNat = x.toNat := by
      rw [← BitVec.toNat_inj, BitVec.toNat_setWidth_of_le (by decide), eq_comm]
    simpa [responsePort] using hx

/-- Settles O27: the three lines of the port, each by the response's constructor. -/
theorem responsePortPacking : Obligations.ResponsePortPacking :=
  ⟨fun _ => rspOk_eq_false_iff, fun _ _ => rspErr_eq_some_iff, fun _ _ => rspData_eq_some_iff⟩

end Sys2Proof.Machine
end

section
/-! The lines of one operation in the history (R67). -/

namespace Sys2Proof.Machine

variable {h : List Entry} {n j : Nat} {x : Transaction} {ans : Answer}

/-- An element of a list with one more at its end is one of the list, or the last. -/
theorem getElem?_concat_cases {α : Type} {l : List α} {a b : α} {k : Nat} (hk : (l ++ [a])[k]? = some b) :
    l[k]? = some b ∨ (k = l.length ∧ b = a) := by
  rw [List.getElem?_append] at hk
  split at hk
  · exact .inl hk
  · simp only [List.getElem?_singleton, Option.ite_none_right_eq_some, Option.some.injEq] at hk
    exact .inr ⟨by omega, hk.2.symm⟩

/-- A line joins the lines of its own operation. -/
@[simp] theorem entriesOf_concat_same : entriesOf (h ++ [⟨n, x, ans⟩]) n = entriesOf h n ++ [(x, ans)] := by
  simp [entriesOf]

/-- A line leaves the lines of every other operation alone. -/
theorem entriesOf_concat_other (hj : j ≠ n) : entriesOf (h ++ [⟨n, x, ans⟩]) j = entriesOf h j := by
  simp [entriesOf, hj.symm]

/-- An operation has no line exactly when no line carries its number. -/
theorem entriesOf_eq_nil_iff : entriesOf h j = [] ↔ ∀ e ∈ h, e.op ≠ j := by
  simp [entriesOf]

end Sys2Proof.Machine
end

section
/-! R72, R94, R116: every response is the one that the lines of its own operation call for. -/

namespace Sys2Proof.Machine

variable {s t : State}

/-- The operation table has a call of the command with these lines and this response. -/
def calledFor (command : Option Instr) (lines : List (Transaction × Answer)) (r : Response) : Prop :=
  ∃ i a ds c, command = some i ∧ callSpec i a ds = some c ∧ lines = c.entries ∧ r = c.response

/-- The lines that the operation in progress already has, by PHASE: in XFER2 the address write that succeeded (R94). -/
def State.linesSoFar (s : State) : List (Transaction × Answer) :=
  if s.phase = .xfer2 then [(.write s.devAddr [0x01#8, s.argLatch], .ok [])] else []

theorem State.linesSoFar_xfer2 (hp : s.phase = .xfer2) :
    s.linesSoFar = [(.write s.devAddr [0x01#8, s.argLatch], .ok [])] := if_pos hp

theorem State.linesSoFar_of_ne (hp : s.phase ≠ .xfer2) : s.linesSoFar = [] := if_neg hp

theorem State.explained_iff : s.explained ↔
    (∀ j r, s.responses[j]? = some r → calledFor s.accepted[j]? (entriesOf s.history j) r) ∧
      entriesOf s.history s.responses.length = s.linesSoFar := Iff.rfl

/-- The command that is owed a response is the operation in progress (R73). -/
theorem State.alternates.owedCommand (h : s.alternates) (ht : s.phase.inTransfer = true) :
    s.accepted[s.responses.length]? = some s.inProgress := by
  rw [← h.last ht, List.getLast?_eq_getElem?, h.owed ht, Nat.add_sub_cancel]

/-- Every response was given to an accepted command (R73). -/
theorem State.alternates.responses_le (h : s.alternates) : s.responses.length ≤ s.accepted.length :=
  h.1 ▸ Nat.le_add_right _ _

/-- The operations not yet accepted have no lines. -/
theorem entriesOf_not_accepted (h : s.historyLegal) {j : Nat} (hj : s.accepted.length ≤ j) :
    entriesOf s.history j = [] :=
  entriesOf_eq_nil_iff.mpr fun e he => ((h.1 e he).1.trans_le hj).ne

/-- In UNBOUND and IDLE the next operation has no lines yet. -/
theorem lines_settled (h : s.Inv) (ht : s.phase.inTransfer = false) :
    entriesOf s.history s.responses.length = s.linesSoFar := by
  have hp : s.phase ≠ .xfer2 := fun hp => by rw [hp] at ht; cases ht
  rw [s.linesSoFar_of_ne hp]
  exact entriesOf_not_accepted h.historyLegal (h.alternates.settled ht).le

/-- A step accepts commands after those accepted before (R73). -/
theorem StepTo.accepted_extends (hs : StepTo s t) : ∃ l, t.accepted = s.accepted ++ l := by
  cases hs with
  | wait | failed | finished | reissued | updated => exact ⟨[], (List.append_nil _).symm⟩
  | new | release | issued => exact ⟨_, rfl⟩

/-- A step keeps the commands accepted before it. -/
theorem StepTo.accepted_earlier (hs : StepTo s t) {j : Nat} (hj : j < s.accepted.length) :
    t.accepted[j]? = s.accepted[j]? := by
  obtain ⟨l, hl⟩ := hs.accepted_extends
  rw [hl, List.getElem?_append_left hj]

/-- A step keeps the lines of every operation that has been given its response (R22, R73). -/
theorem StepTo.entriesOf_earlier (hs : StepTo s t) {j : Nat} (hj : j < s.responses.length) :
    entriesOf t.history j = entriesOf s.history j := by
  obtain ⟨hh, -⟩ | ⟨x, d, -, -, hh⟩ := hs.history_cases
  · rw [hh]
  · rw [hh, entriesOf_concat_other hj.ne]

/-- What called for an earlier response still does after a step. -/
theorem StepTo.calledFor_earlier (hs : StepTo s t) (ha : s.alternates) (h : s.explained) {j : Nat} {r : Response}
    (hr : s.responses[j]? = some r) : calledFor t.accepted[j]? (entriesOf t.history j) r := by
  have hj := (List.getElem?_eq_some_iff.mp hr).1
  rw [hs.accepted_earlier (hj.trans_le ha.responses_le), hs.entriesOf_earlier hj]
  exact h.1 j r hr

/-- A step that gives no response keeps `explained` if the operation in progress has the lines its PHASE says. -/
theorem StepTo.explained_of_silent (hs : StepTo s t) (ha : s.alternates) (h : s.explained)
    (hres : t.responses = s.responses) (hnow : entriesOf t.history s.responses.length = t.linesSoFar) :
    t.explained := by
  refine State.explained_iff.mpr ⟨fun j r hr => ?_, hres.symm ▸ hnow⟩
  exact hs.calledFor_earlier ha h (hres ▸ hr)

/-- A step that gives a response keeps `explained` if the operation's lines call for that response. -/
theorem StepTo.explained_of_response (hs : StepTo s t) (ha : s.alternates) (h : s.explained) {r : Response}
    (hres : t.responses = s.responses ++ [r])
    (hr : calledFor t.accepted[s.responses.length]? (entriesOf t.history s.responses.length) r)
    (hnow : entriesOf t.history t.responses.length = t.linesSoFar) : t.explained := by
  refine State.explained_iff.mpr ⟨fun j q hq => ?_, hnow⟩
  obtain hq | ⟨rfl, rfl⟩ := getElem?_concat_cases (hres ▸ hq)
  · exact hs.calledFor_earlier ha h hq
  · exact hr

/-- In XFER1 the operation in progress has the transaction outstanding that its own acceptance issues. -/
theorem outstanding_startTransfer (hp : s.phase = .xfer1) :
    (s.startTransfer s.inProgress).outstanding = s.outstanding := by
  have hop : (s.startTransfer s.inProgress).opLatch = s.opLatch := opOf_inProgress s
  have harg : (s.startTransfer s.inProgress).argLatch = s.argLatch := by
    simp only [State.startTransfer, State.inProgress]
    cases s.opLatch <;> rfl
  have hphase : (s.startTransfer s.inProgress).phase = .xfer1 := rfl
  simp only [State.outstanding, hop, hphase, hp, memWrite, memRead, harg]
  rfl

/-- In XFER1 an operation other than `set_address` is, in the operation table, one call of the transaction outstanding. -/
theorem callSpec_inProgress (h : s.sequencerLegal) (hp : s.phase = .xfer1) (ho : s.opLatch ≠ .setAddress)
    {x : Transaction} (hx : s.outstanding = some x) (ds : List Draw) :
    callSpec s.inProgress s.devAddr ds =
      callOne s.devAddr x (fun r0 r1 => [r0, r1].take (readLen x)) (responseTo s.opLatch) ds := by
  have hop := opOf_inProgress s
  obtain ⟨y, hy, hcall⟩ := callSpec_single (hop ▸ h.1 hp) (hop ▸ ho) s
  rw [outstanding_startTransfer hp] at hy
  obtain rfl := Option.some.inj (hx.symm.trans hy)
  rw [hcall, hop]

/-- A success of the one transaction of an operation calls for the response that the engine gives (R116). -/
theorem calledFor_ok (h : s.sequencerLegal) (hp : s.phase = .xfer1) (ho : s.opLatch ≠ .setAddress)
    {x : Transaction} (hx : s.outstanding = some x) (r0 r1 : Byte) :
    calledFor (some s.inProgress) (s.linesSoFar ++ [(x, drawAnswer (readLen x) (.ok r0 r1))])
      (responseTo s.opLatch r0 r1) := by
  rw [s.linesSoFar_of_ne (by rw [hp]; nofun)]
  exact ⟨_, s.devAddr, [.ok r0 r1], _, rfl, callSpec_inProgress h hp ho hx _, rfl, rfl⟩

/-- A success of the reset write of `set_address` calls for `Done` (R94). -/
theorem calledFor_updated (hp : s.phase = .xfer2) (ho : s.opLatch = .setAddress) (r0 r1 : Byte) :
    calledFor (some s.inProgress) (s.linesSoFar ++ [(.write s.devAddr [0x06#8], .ok [])]) .done := by
  rw [s.linesSoFar_xfer2 hp, inProgress_setAddress ho]
  exact ⟨_, s.devAddr, [.ok r0 r1, .ok r0 r1], _, rfl, rfl, rfl, rfl⟩

/-- A failure of the outstanding transaction, whichever it is, calls for its error (R94, R131). -/
theorem calledFor_err (h : s.sequencerLegal) {x : Transaction} (hx : s.outstanding = some x) (e : ErrT) :
    calledFor (some s.inProgress) (s.linesSoFar ++ [(x, .err e)]) (.err e) := by
  obtain hp | hp := outstanding_inTransfer hx
  · rw [s.linesSoFar_of_ne (by rw [hp]; nofun)]
    by_cases ho : s.opLatch = .setAddress
    · obtain rfl := Option.some.inj ((outstanding_setAddress1 hp ho).symm.trans hx)
      rw [inProgress_setAddress ho]
      exact ⟨_, s.devAddr, [.err e], _, rfl, rfl, rfl, rfl⟩
    · exact ⟨_, s.devAddr, [.err e], _, rfl, callSpec_inProgress h hp ho hx _, rfl, rfl⟩
  · obtain rfl := Option.some.inj ((outstanding_xfer2 hp).symm.trans hx)
    rw [s.linesSoFar_xfer2 hp, inProgress_setAddress (h.2 hp)]
    exact ⟨_, s.devAddr, [.ok 0 0, .err e], _, rfl, rfl, rfl, rfl⟩

/-- `new` and `release` are called with no lines and answer `Done` (R80, R82). -/
theorem calledFor_lifecycle {i : Instr} (hi : busOp (opOf i) = false) : calledFor (some i) [] .done := by
  cases i with
  | new a => exact ⟨_, a, [], _, rfl, rfl, rfl, rfl⟩
  | release => exact ⟨_, 0, [], _, rfl, rfl, rfl, rfl⟩
  | _ => cases hi

/-- Acceptance of `new` or `release` gives the response that its empty list of lines calls for. -/
theorem calledFor_accepted (h : s.Inv) (ht : s.phase.inTransfer = false) {i : Instr} (hi : busOp (opOf i) = false) :
    calledFor (s.accepted ++ [i])[s.responses.length]? (entriesOf s.history s.responses.length) .done := by
  rw [← h.alternates.settled ht, List.getElem?_concat_length, entriesOf_not_accepted h.historyLegal le_rfl]
  exact calledFor_lifecycle hi

/-- The answer to the outstanding transaction joins the lines of the operation in progress. -/
theorem calledFor_answered (h : s.Inv) (he : s.explained) {x : Transaction} (hx : s.outstanding = some x)
    {ans : Answer} {r : Response} (hr : calledFor (some s.inProgress) (s.linesSoFar ++ [(x, ans)]) r) :
    calledFor s.accepted[s.responses.length]?
      (entriesOf (s.history ++ [⟨s.responses.length, x, ans⟩]) s.responses.length) r := by
  rw [h.alternates.owedCommand (outstanding_transfer hx), entriesOf_concat_same, (State.explained_iff.mp he).2]
  exact hr

/-- Settles O40: the response of each step that gives one is called for by the operation table, and the other steps leave the
lines that PHASE says. -/
theorem responsesExplainedByHistory : Obligations.ResponsesExplainedByHistory := by
  intro s t h he hstep
  have hs : StepTo s t := step_cases hstep
  have ha := h.alternates
  have hseq := h.sequencerLegal
  have hlines := (State.explained_iff.mp he).2
  have hsettled := lines_settled (stepKeepsInvariant s t h hstep)
  cases step_cases hstep with
  | wait => exact he
  | new a w ws hp hw hd =>
    exact hs.explained_of_response ha he rfl (calledFor_accepted h (by rw [hp]; rfl) rfl) (hsettled rfl)
  | release w ws hp hw hd =>
    exact hs.explained_of_response ha he rfl (calledFor_accepted h (by rw [hp]; rfl) rfl) (hsettled rfl)
  | issued i w ws hp hw hd hb hl =>
    exact hs.explained_of_silent ha he rfl (hlines.trans (s.linesSoFar_of_ne (by rw [hp]; nofun)))
  | failed x e ds hx h2 hd =>
    exact hs.explained_of_response ha he rfl (calledFor_answered h he hx (calledFor_err hseq hx e)) (hsettled rfl)
  | finished x r0 r1 ds hp hx ho hd =>
    exact hs.explained_of_response ha he rfl
      (calledFor_answered h he hx (calledFor_ok hseq hp ho hx r0 r1)) (hsettled rfl)
  | reissued r0 r1 ds hp ho hl hd =>
    refine hs.explained_of_silent ha he rfl ?_
    rw [entriesOf_concat_same, hlines, s.linesSoFar_of_ne (by rw [hp]; nofun)]
    rfl
  | updated r0 r1 ds hp ho hd =>
    exact hs.explained_of_response ha he rfl
      (calledFor_answered h he (outstanding_xfer2 hp) (calledFor_updated hp ho r0 r1)) (hsettled rfl)

end Sys2Proof.Machine
end

section
/-! R67: which operation issued a line, told by the line and the one before it. -/

namespace Sys2Proof.Machine

variable {h : List Entry} {e : Entry}

/-- Later lines do not change what a line decodes to. -/
theorem operationOf_append_left {k : Nat} (hk : k < h.length) (l : List Entry) :
    operationOf (h ++ l) k = operationOf h k := by
  cases k with
  | zero => simp only [operationOf, List.getElem?_append_left hk]
  | succ j => simp only [operationOf, List.getElem?_append_left hk, List.getElem?_append_left (j.lt_succ_self.trans hk)]

/-- Only a line of the same operation can be the first frame to a second (R67). -/
theorem secondFrameOf_op {prev : Entry} {x : Byte} (hx : secondFrameOf prev e = some x) : prev.op = e.op := by
  unfold secondFrameOf at hx
  split at hx
  · split at hx
    · rename_i hc
      exact hc.2.2.2
    · cases hx
  · cases hx

/-- A line and the line before it decide the operation: as a second frame, or else by the frame alone. -/
theorem operationOf_after (l : List Entry) (prev e : Entry) :
    operationOf (l ++ [prev] ++ [e]) (l.length + 1) =
      ((secondFrameOf prev e).map Instr.setAddress).or (busDecode e.txn) := by
  simp only [operationOf, List.append_assoc, List.cons_append, List.nil_append, List.getElem?_append_right,
    Nat.le_add_right, Nat.le_refl, Nat.add_sub_cancel_left, Nat.sub_self, List.getElem?_cons_zero,
    List.getElem?_cons_succ]
  cases secondFrameOf prev e <;> rfl

/-- A line whose operation has no line before it decodes by its frame alone. -/
theorem operationOf_concat_first (hn : entriesOf h e.op = []) :
    operationOf (h ++ [e]) h.length = busDecode e.txn := by
  obtain rfl | ⟨l, prev, rfl⟩ := List.eq_nil_or_concat' h
  · rfl
  · have hother : secondFrameOf prev e = none := by
      cases hx : secondFrameOf prev e with
      | none => rfl
      | some x => exact absurd (secondFrameOf_op hx) (entriesOf_eq_nil_iff.mp hn prev List.mem_concat_self)
    rw [List.length_append, List.length_singleton, operationOf_after, hother]
    rfl

/-- A line that follows the first frame of its `set_address` decodes to that operation. -/
theorem operationOf_concat_second {prev : Entry} {x : Byte} (hl : h.getLast? = some prev)
    (hx : secondFrameOf prev e = some x) : operationOf (h ++ [e]) h.length = some (.setAddress x) := by
  obtain ⟨l, rfl⟩ := List.getLast?_eq_some_iff.mp hl
  rw [List.length_append, List.length_singleton, operationOf_after, hx]
  rfl

variable {s : State}

/-- The line that a step adds decodes to the operation in progress. -/
theorem operationOf_answered (h : s.Inv) (he : s.explained) {x : Transaction} (hx : s.outstanding = some x)
    (ans : Answer) :
    operationOf (s.history ++ [⟨s.responses.length, x, ans⟩]) s.history.length = some s.inProgress := by
  obtain hp | hp := outstanding_inTransfer hx
  · have hnone := (State.explained_iff.mp he).2.trans (s.linesSoFar_of_ne (by rw [hp]; nofun))
    rw [operationOf_concat_first hnone, outstanding_busDecode hp hx]
  · obtain rfl := Option.some.inj ((outstanding_xfer2 hp).symm.trans hx)
    rw [inProgress_setAddress (h.sequencerLegal.2 hp)]
    exact operationOf_concat_second (h.historyLegal.2 hp) (by simp [secondFrameOf])

/-- Settles O41: the lines before a step decode as before, and the line it adds to the operation in progress. -/
theorem historyDecodesToOperations : Obligations.HistoryDecodesToOperations := by
  intro s t h he hdec hstep
  have hs := step_cases hstep
  have hold : ∀ k e, s.history[k]? = some e → operationOf s.history k = t.accepted[e.op]? := by
    intro k e hk
    rw [hs.accepted_earlier (h.historyLegal.1 e (List.mem_of_getElem? hk)).1]
    exact hdec k e hk
  intro k e hk
  obtain ⟨hh, -⟩ | ⟨x, d, hx, -, hh⟩ := hs.history_cases
  · rw [hh] at hk ⊢
    exact hold k e hk
  · rw [hh] at hk ⊢
    obtain hk | ⟨rfl, rfl⟩ := getElem?_concat_cases hk
    · rw [operationOf_append_left (List.getElem?_eq_some_iff.mp hk).1]
      exact hold k e hk
    · have ht := outstanding_transfer hx
      have hn : s.responses.length < s.accepted.length := h.alternates.owed ht ▸ Nat.lt_succ_self _
      rw [hs.accepted_earlier hn, h.alternates.owedCommand ht]
      exact operationOf_answered h he hx _

end Sys2Proof.Machine
end

section
/-! The lifecycle operations (R80 to R83): what `exec` answers to them in every PHASE, and what is read off from that. -/

namespace Sys2Proof.Machine

variable {s : State}

/-- `new` is accepted in UNBOUND only (R80). -/
theorem exec_new_bound {a : Byte} (hp : s.phase ≠ .unbound) : exec (.new a) s = .next s := by
  cases h : s.phase with
  | unbound => exact absurd h hp
  | _ => simp only [exec, execNew, h]

/-- `release` is accepted in IDLE only (R82). -/
theorem exec_release_not_idle (hp : s.phase ≠ .idle) : exec .release s = .next s := by
  cases h : s.phase with
  | idle => exact absurd h hp
  | _ => simp only [exec, execRelease, h]

/-- What `exec` answers to `new` and `release`: nothing changes, or the operation is accepted in its own PHASE. -/
theorem exec_lifecycle_cases {i : Instr} (hi : i = .release ∨ ∃ a, i = .new a) :
    exec i s = .next s ∨
    (s.phase = .unbound ∧ ∃ a, i = .new a ∧ exec i s = .next (s.bindTo a)) ∨
    (s.phase = .idle ∧ i = .release ∧ exec i s = .next s.unbind) := by
  obtain rfl | ⟨a, rfl⟩ := hi
  · by_cases hp : s.phase = .idle
    · exact .inr (.inr ⟨hp, rfl, exec_release_idle hp⟩)
    · exact .inl (exec_release_not_idle hp)
  · by_cases hp : s.phase = .unbound
    · exact .inr (.inl ⟨hp, a, rfl, exec_new_unbound hp⟩)
    · exact .inl (exec_new_bound hp)

/-- Outside XFER1 and XFER2 no transaction is outstanding (R35). -/
theorem outstanding_eq_none (ht : s.phase.inTransfer = false) : s.outstanding = none :=
  Option.eq_none_iff_forall_ne_some.mpr fun _ hx => Bool.false_ne_true (ht.symm.trans (outstanding_transfer hx))

/-- Settles O12: `new` in UNBOUND is `bindTo`, where acceptance keeps ARG_LATCH. -/
theorem newBindsTheEngine : Obligations.NewBindsTheEngine :=
  ⟨decode_hostCode (.new 0), fun _ s hp => ⟨s.argLatch, exec_new_unbound hp⟩, fun _ _ hp => exec_new_bound hp⟩

/-- Settles O13: `release` in IDLE is `unbind`, which keeps DEV_ADDR and ARG_LATCH. -/
theorem releaseUnbindsTheEngine : Obligations.ReleaseUnbindsTheEngine :=
  ⟨decode_hostCode .release, fun s hp => ⟨s.devAddr, s.argLatch, exec_release_idle hp⟩,
    fun _ hp => exec_release_not_idle hp⟩

/-- Settles O14: an accepted operation moves between UNBOUND and IDLE, where no transaction is outstanding. -/
theorem lifecycleInvisibleToTransport : Obligations.LifecycleInvisibleToTransport := by
  intro i s hi
  obtain he | ⟨hp, a, -, he⟩ | ⟨hp, -, he⟩ := exec_lifecycle_cases (s := s) hi
  · exact ⟨s, he, rfl, rfl, rfl⟩
  · have hnone : s.outstanding = none := outstanding_eq_none (by rw [hp]; rfl)
    exact ⟨s.bindTo a, he, rfl, rfl, hnone.symm⟩
  · have hnone : s.outstanding = none := outstanding_eq_none (by rw [hp]; rfl)
    exact ⟨s.unbind, he, rfl, rfl, hnone.symm⟩

/-- Settles O15, over the answers to a lifecycle operation; only `new` loads DEV_ADDR. -/
theorem lifecycleFrame : Obligations.LifecycleFrame := by
  intro i s t hi hexec
  obtain he | ⟨-, a, rfl, he⟩ | ⟨-, rfl, he⟩ := exec_lifecycle_cases (s := s) hi
  · obtain rfl := Host.Outcome.next.inj (he.symm.trans hexec)
    exact ⟨rfl, rfl, fun _ => rfl, .inl rfl⟩
  · obtain rfl := Host.Outcome.next.inj (he.symm.trans hexec)
    exact ⟨rfl, rfl, nofun, .inr ⟨rfl, rfl⟩⟩
  · obtain rfl := Host.Outcome.next.inj (he.symm.trans hexec)
    exact ⟨rfl, rfl, fun _ => rfl, .inr ⟨rfl, rfl⟩⟩

end Sys2Proof.Machine
end

section
/-! The write-only commands (R90, R92, R94): what `exec` answers to them in every PHASE. The rule of the operations with one
transaction is for any of them. -/

namespace Sys2Proof.Machine

variable {s : State}

/-- The operation latched with an operand is the operation with that operand (R16). -/
theorem latchedInstr_opOf (i : Instr) (arg : Byte) : latchedInstr (opOf i) arg = i.withOperand arg := by
  cases i <;> rfl

/-- An operation without an operand is in progress exactly while OP_LATCH names it (R16). -/
theorem inProgress_eq_iff_opLatch {i : Instr} (hi : ∀ arg, i.withOperand arg = i) :
    s.inProgress = i ↔ s.opLatch = opOf i := by
  constructor
  · rintro rfl
    exact (opOf_inProgress s).symm
  · intro ho
    rw [State.inProgress, ho, latchedInstr_opOf, hi]

/-- An operation without an operand whose meaning is `oneTransaction` has the steps of an operation with one transaction (R14,
R35, R71). -/
theorem oneTransactionOp_of_exec {i : Instr} {t : Byte → Transaction} {bytes : Byte → Byte → List Byte}
    {r : Byte → Byte → Response} (hi : ∀ arg, i.withOperand arg = i)
    (he : exec i = oneTransaction i (fun s => t s.devAddr) r)
    (hbytes : ∀ a r0 r1, [r0, r1].take (readLen (t a)) = bytes r0 r1) :
    Statements.oneTransactionOp i (opOf i) (hostCode i) t bytes r := by
  have hanswer : ∀ s : State, s.phase = .xfer1 → s.opLatch = opOf i →
      exec i s = onAnswer (t s.devAddr) (fun r0 r1 s' => .next (s'.respond (r r0 r1))) s := by
    intro s hp ho
    rw [he]
    exact oneTransaction_answer hp ((inProgress_eq_iff_opLatch hi).mpr ho)
  refine ⟨?decoded, ?accepted, ?ok, ?err, ?silent, ?notAccepted⟩
  case decoded =>
    intro arg
    rw [decode_hostCode, hi]
  case accepted =>
    intro s hp hl
    rw [he, oneTransaction_idle hp]
    exact ⟨s.argLatch, issue_of_legal (decide_eq_true hl)⟩
  case ok =>
    intro s r0 r1 ds hp ho hd
    rw [hanswer s hp ho, onAnswer_ok hd, ← hbytes s.devAddr]
    rfl
  case err =>
    intro s e ds hp ho hd
    rw [hanswer s hp ho, onAnswer_err hd]
    rfl
  case silent =>
    intro s hp ho hd
    rw [hanswer s hp ho, onAnswer_silent hd]
  case notAccepted =>
    intro s hs
    rw [he]
    refine oneTransaction_not_accepted ?_
    rwa [ne_eq, inProgress_eq_iff_opLatch hi]

/-- Settles O16, by the rule of the operations with one transaction. -/
theorem resetOperation : Obligations.ResetOperation :=
  oneTransactionOp_of_exec (i := .reset) (fun _ => rfl) rfl (fun _ _ _ => rfl)

/-- Settles O17, by the rule of the operations with one transaction. -/
theorem triggerMeasurementOperation : Obligations.TriggerMeasurementOperation :=
  oneTransactionOp_of_exec (i := .triggerMeasurement) (fun _ => rfl) rfl (fun _ _ _ => rfl)

/-- While `set_address` of another operand or another operation is in progress, `set_address` is not accepted (R15). -/
theorem exec_setAddress_other {x : Byte} (ht : s.phase.inTransfer = true) (hi : s.inProgress ≠ .setAddress x) :
    exec (.setAddress x) s = .next s := by
  obtain hp | hp := (Phase.inTransfer_iff _).mp ht <;> simp only [exec, execSetAddress, hp, if_neg hi]

theorem exec_setAddress_unbound {x : Byte} (hp : s.phase = .unbound) : exec (.setAddress x) s = .next s := by
  simp only [exec, execSetAddress, hp]

/-- In XFER1 `set_address` takes the answer to its address write, and on success issues the reset write (R94). -/
theorem exec_setAddress_xfer1 (hp : s.phase = .xfer1) (ho : s.opLatch = .setAddress) :
    exec (.setAddress s.argLatch) s =
      onAnswer (.write s.devAddr [0x01#8, s.argLatch]) (fun _ _ s' => issue .xfer2 s') s := by
  rw [← inProgress_setAddress ho]
  exact execSetAddress_xfer1 hp ho

/-- In XFER2 `set_address` takes the answer to its reset write, and on success updates DEV_ADDR (R94, R95). -/
theorem exec_setAddress_xfer2 (hp : s.phase = .xfer2) (ho : s.opLatch = .setAddress) :
    exec (.setAddress s.argLatch) s =
      onAnswer (.write s.devAddr [0x06#8]) (fun _ _ s' => .next s'.adoptAddress) s := by
  rw [← inProgress_setAddress ho]
  exact execSetAddress_xfer2 hp ho

/-- With no answer yet `set_address` waits, whatever is in progress (R15, U9). -/
theorem exec_setAddress_silent {x : Byte} (ht : s.phase.inTransfer = true) (hd : s.transport = []) :
    exec (.setAddress x) s = .next s := by
  by_cases hi : s.inProgress = .setAddress x
  · have ho : s.opLatch = .setAddress := (opOf_inProgress s).symm.trans (congrArg opOf hi)
    obtain rfl : s.argLatch = x := Instr.setAddress.inj ((inProgress_setAddress ho).symm.trans hi)
    obtain hp | hp := (Phase.inTransfer_iff _).mp ht
    · exact (exec_setAddress_xfer1 hp ho).trans (onAnswer_silent hd)
    · exact (exec_setAddress_xfer2 hp ho).trans (onAnswer_silent hd)
  · exact exec_setAddress_other ht hi

/-- Settles O18, step by step: acceptance, the answers to the two writes, and the cases in which nothing happens. -/
theorem setAddressOperation : Obligations.SetAddressOperation := by
  refine ⟨decode_hostCode (.setAddress 0), ?accepted, ?firstOk, ?firstErr, ?secondOk, ?secondErr, ?silent, ?notAccepted⟩
  case accepted =>
    intro x s hp hl
    exact exec_idle_starts hp rfl (decide_eq_true hl)
  case firstOk =>
    rintro x r0 r1 s ds hp ho rfl hl hd
    rw [exec_setAddress_xfer1 hp ho, onAnswer_ok hd]
    exact issue_of_legal (decide_eq_true hl)
  case firstErr =>
    rintro x e s ds hp ho rfl hd
    exact (exec_setAddress_xfer1 hp ho).trans (onAnswer_err hd)
  case secondOk =>
    rintro x r0 r1 s ds hp ho rfl hd
    exact (exec_setAddress_xfer2 hp ho).trans (onAnswer_ok hd)
  case secondErr =>
    rintro x e s ds hp ho rfl hd
    exact (exec_setAddress_xfer2 hp ho).trans (onAnswer_err hd)
  case silent =>
    intro x s hp hd
    exact exec_setAddress_silent ((Phase.inTransfer_iff _).mpr hp) hd
  case notAccepted =>
    rintro x s (hp | ⟨hp, ho⟩)
    · exact exec_setAddress_unbound hp
    · refine exec_setAddress_other (by rw [hp]; rfl) fun hi => ho ?_
      exact (opOf_inProgress s).symm.trans (congrArg opOf hi)

end Sys2Proof.Machine
end

section
/-! R95: DEV_ADDR from the offer of `set_address` on. Until a response is given the operation is offered or in progress; a step
that changes DEV_ADDR gives a response. -/

namespace Sys2Proof.Machine

variable {s t u : State} {x : Byte}

/-- `set_address(x)` is offered in IDLE, or in progress. -/
def State.awaitsAddress (x : Byte) (s : State) : Prop :=
  (s.phase = .idle ∧ ∃ ws, s.hostPort = encode (.setAddress x) :: ws) ∨
  (s.phase.inTransfer = true ∧ s.opLatch = .setAddress ∧ s.argLatch = x)

/-- From `s` to `t` no response was given, and DEV_ADDR is the old one. -/
def State.addressKept (s t : State) : Prop := t.responses = s.responses ∧ t.devAddr = s.devAddr

theorem State.addressKept.trans (h : s.addressKept t) (hk : t.addressKept u) : s.addressKept u :=
  ⟨hk.1.trans h.1, hk.2.trans h.2⟩

/-- A step gives one response, or none and then leaves DEV_ADDR alone. -/
theorem StepTo.silent_or_responds (hs : StepTo s t) :
    s.addressKept t ∨ ∃ r, t.responses = s.responses ++ [r] := by
  cases hs with
  | wait | issued | reissued => exact .inl ⟨rfl, rfl⟩
  | new | release | failed | finished | updated => exact .inr ⟨_, rfl⟩

/-- From `s` to `t` one response was given: `Done` with DEV_ADDR the new address, or `Err` with the old one (R95). -/
def State.addressAnswered (x : Byte) (s t : State) : Prop :=
  (t.responses = s.responses ++ [.done] ∧ t.devAddr = x) ∨
  (∃ e, t.responses = s.responses ++ [.err e] ∧ t.devAddr = s.devAddr)

theorem State.addressAnswered.responses_length (h : s.addressAnswered x t) : t.responses.length = s.responses.length + 1 := by
  obtain ⟨hr, -⟩ | ⟨e, hr, -⟩ := h <;> rw [hr, List.length_append, List.length_singleton]

theorem State.addressKept.answered (hk : s.addressKept t) (h : t.addressAnswered x u) : s.addressAnswered x u := by
  obtain ⟨hr, ha⟩ := hk
  rwa [State.addressAnswered, hr, ha] at h

theorem State.addressAnswered.kept (h : s.addressAnswered x t) (hk : t.addressKept u) : s.addressAnswered x u := by
  obtain ⟨hr, ha⟩ := hk
  rwa [State.addressAnswered, ← hr, ← ha] at h

/-- A step while `set_address(x)` is offered leaves it offered, or begins it. -/
theorem StepTo.awaitsAddress_of_offered {ws : List CmdWord} (hs : StepTo s t) (hp : s.phase = .idle)
    (hw : s.hostPort = encode (.setAddress x) :: ws) : t.awaitsAddress x ∧ s.addressKept t := by
  have hdec : decode (encode (.setAddress x)) = .instr (.setAddress x) := commandWordRoundTrip _
  cases hs with
  | wait => exact ⟨.inl ⟨hp, ws, hw⟩, rfl, rfl⟩
  | issued i w vs _ hw' hd =>
    obtain ⟨rfl, -⟩ := List.cons.inj (hw.symm.trans hw')
    obtain rfl := Decoded.instr.inj (hdec.symm.trans hd)
    exact ⟨.inr ⟨rfl, rfl, rfl⟩, rfl, rfl⟩
  | release w vs _ hw' hd =>
    obtain ⟨rfl, -⟩ := List.cons.inj (hw.symm.trans hw')
    cases hdec.symm.trans hd
  | failed y e ds hy => obtain h | h := outstanding_inTransfer hy <;> cases hp.symm.trans h
  | new _ _ _ h | finished _ _ _ _ h | reissued _ _ _ h | updated _ _ _ h => cases hp.symm.trans h

/-- A step while `set_address(x)` is in progress leaves it so, or ends it with one of the two outcomes of R95. -/
theorem StepTo.awaitsAddress_of_transfer (hs : StepTo s t) (ht : s.phase.inTransfer = true)
    (ho : s.opLatch = .setAddress) (hx : s.argLatch = x) :
    (t.awaitsAddress x ∧ s.addressKept t) ∨ s.addressAnswered x t := by
  cases hs with
  | wait => exact .inl ⟨.inr ⟨ht, ho, hx⟩, rfl, rfl⟩
  | reissued => exact .inl ⟨.inr ⟨rfl, ho, hx⟩, rfl, rfl⟩
  | failed y e => exact .inr (.inr ⟨e, rfl, rfl⟩)
  | updated => exact .inr (.inl ⟨rfl, hx⟩)
  | finished _ _ _ _ _ _ h => exact absurd ho h
  | new _ _ _ hp | release _ _ hp | issued _ _ _ hp => rw [hp] at ht; cases ht

/-- What is known of DEV_ADDR after a run from `s`, where `set_address(x)` was offered; nothing after a second response. -/
def State.atomicSince (x : Byte) (s t : State) : Prop :=
  (t.awaitsAddress x ∧ s.addressKept t) ∨ s.addressAnswered x t ∨ s.responses.length + 1 < t.responses.length

theorem step_keeps_atomicSince (h : s.atomicSince x t) (hs : StepTo t u) : s.atomicSince x u := by
  obtain ⟨⟨hp, ws, hw⟩ | ⟨ht, ho, hx⟩, hkept⟩ | hans | hlen := h
  · obtain ⟨hu, hk⟩ := hs.awaitsAddress_of_offered hp hw
    exact .inl ⟨hu, hkept.trans hk⟩
  · obtain ⟨hu, hk⟩ | hans := hs.awaitsAddress_of_transfer ht ho hx
    · exact .inl ⟨hu, hkept.trans hk⟩
    · exact .inr (.inl (hkept.answered hans))
  · obtain hsilent | ⟨r, hr⟩ := hs.silent_or_responds
    · exact .inr (.inl (hans.kept hsilent))
    · refine .inr (.inr ?_)
      rw [hr, List.length_append, hans.responses_length]
      exact Nat.lt_succ_self _
  · refine .inr (.inr ?_)
    obtain ⟨hr, -⟩ | ⟨r, hr⟩ := hs.silent_or_responds
    · rwa [hr]
    · rw [hr, List.length_append]
      exact hlen.trans (Nat.lt_succ_self _)

/-- Settles O46: `atomicSince` holds at the start and is kept by every step. -/
theorem addressUpdateIsAtomic : Obligations.AddressUpdateIsAtomic := by
  intro s t x ws k hp hw hrun hlen
  have hstart : s.atomicSince x s := .inl ⟨.inl ⟨hp, ws, hw⟩, rfl, rfl⟩
  obtain ⟨-, hkept⟩ | hans | hmore :=
    run_induction (fun _ _ h hstep => step_keeps_atomicSince h (step_cases hstep)) k s t hstart hrun
  · exact .inl hkept
  · exact .inr hans
  · exact absurd hlen (Nat.not_le.mpr hmore)

end Sys2Proof.Machine
end

section
/-! The read queries (R100 to R108): each is an operation with one transaction, and the bytes it reads become its response. -/

namespace Sys2Proof.Machine

/-- Settles O19, by the rule of the operations with one transaction; `busyBit` is the test on the byte's value. -/
theorem isBusyOperation : Obligations.IsBusyOperation :=
  oneTransactionOp_of_exec (i := .isBusy) (fun _ => rfl) (by simp only [← busyBit_eq_decide]; rfl) (fun _ _ _ => rfl)

/-- Settles O20, by the rule of the operations with one transaction. -/
theorem readVersionOperation : Obligations.ReadVersionOperation :=
  oneTransactionOp_of_exec (i := .readVersion) (fun _ => rfl) rfl (fun _ _ _ => rfl)

end Sys2Proof.Machine
end

section
/-! The 16-bit result of two bytes (R110), and its unsigned and signed readings (R111, R112). -/

namespace Sys2Proof.Machine

@[simp] theorem highByte_combine (hi lo : Byte) : highByte (combine hi lo) = hi := BitVec.extractLsb'_append_eq_left

@[simp] theorem lowByte_combine (hi lo : Byte) : lowByte (combine hi lo) = lo := BitVec.extractLsb'_append_eq_right

/-- Settles O28: the two bytes are read off the value, and the value is their combination. -/
theorem combineIsBigEndianBijection : Obligations.CombineIsBigEndianBijection := by
  refine ⟨combine_toNat, fun v => ⟨highByte v, lowByte v, combine_highByte_lowByte v, ?_⟩⟩
  rintro hi lo rfl
  exact ⟨(highByte_combine hi lo).symm, (lowByte_combine hi lo).symm⟩

/-- The model's signed reading is the library's (R112). -/
theorem sint16_eq_toInt (v : Half) : sint16 v = v.toInt := by
  rw [sint16, BitVec.toInt_eq_toNat_cond]
  split <;> split <;> omega

/-- The signed reading by the two bytes: 65536 less where the first byte is 0x80 or more (R112). -/
theorem sint16_combine (hi lo : Byte) : sint16 (combine hi lo) =
    (hi.toNat : Int) * 256 + lo.toNat - (if hi.toNat < 128 then 0 else 65536) := by
  have hlo := lo.isLt
  rw [sint16, combine_toNat]
  split <;> split <;> omega

/-- Settles O29, by the reading of the two bytes and the library's facts about two's complement. -/
theorem signedAndUnsignedReadings : Obligations.SignedAndUnsignedReadings := by
  refine ⟨combine_toNat, ?_, ?_, ?_, ?_⟩
  · intro hi lo h
    rw [sint16_combine, if_pos h]
    omega
  · intro hi lo h
    rw [sint16_combine, if_neg h.not_gt]
    omega
  · intro v
    rw [sint16_eq_toInt]
    exact ⟨BitVec.le_toInt v, Int.le_of_lt_add_one BitVec.toInt_lt⟩
  · intro v w h
    rw [sint16_eq_toInt, sint16_eq_toInt] at h
    exact BitVec.eq_of_toInt_eq h

end Sys2Proof.Machine
end

section
/-! The decoded values of the three readings (R105, R107, R109, R113), and the queries that give them (R104, R106, R108). -/

namespace Sys2Proof.Machine

theorem decodedValue_temperature (v : Half) :
    decodedValue .readTemperature (.s16 v) = some ((sint16 v : Rat) / 10) := rfl

theorem decodedValue_light (v : Half) : decodedValue .readLight (.u16 v) = some ((v.toNat : Rat) / 10) := rfl

theorem decodedValue_capacitance (v : Half) : decodedValue .readCapacitance (.u16 v) = some (v.toNat : Rat) := rfl

/-- Settles O30: ten times a tenth is the integer. -/
theorem decodedValuesAreTenths : Obligations.DecodedValuesAreTenths := by
  refine ⟨fun v => ⟨_, decodedValue_temperature v, ?_⟩, fun v => ⟨_, decodedValue_light v, ?_⟩, decodedValue_capacitance⟩
  · exact div_mul_cancel₀ _ (by norm_num)
  · exact div_mul_cancel₀ _ (by norm_num)

/-- The unsigned reading as a rational, by the two bytes (R111). -/
theorem combine_toNat_rat (hi lo : Byte) : ((combine hi lo).toNat : Rat) = (hi.toNat : Rat) * 256 + lo.toNat := by
  rw [combine_toNat]
  push_cast
  rfl

/-- The signed reading as a rational, by the two bytes (R112). -/
theorem sint16_combine_rat (hi lo : Byte) : (sint16 (combine hi lo) : Rat) =
    (hi.toNat : Rat) * 256 + lo.toNat - (if hi.toNat < 128 then 0 else 65536) := by
  rw [sint16_combine]
  push_cast
  rfl

/-- Settles O21, by the rule of the operations with one transaction and the signed reading of the two bytes. -/
theorem readTemperatureOperation : Obligations.ReadTemperatureOperation := by
  refine ⟨oneTransactionOp_of_exec (i := .readTemperature) (fun _ => rfl) (by simp only [← combine_eq_ofNat]; rfl)
    (fun _ _ _ => rfl), fun r0 r1 => ?_⟩
  rw [← combine_eq_ofNat, decodedValue_temperature, sint16_combine_rat]

/-- Settles O22, by the rule of the operations with one transaction and the unsigned reading of the two bytes. -/
theorem readCapacitanceOperation : Obligations.ReadCapacitanceOperation := by
  refine ⟨oneTransactionOp_of_exec (i := .readCapacitance) (fun _ => rfl) (by simp only [← combine_eq_ofNat]; rfl)
    (fun _ _ _ => rfl), fun r0 r1 => ?_⟩
  rw [← combine_eq_ofNat, decodedValue_capacitance, combine_toNat_rat]

/-- Settles O23, by the rule of the operations with one transaction and the unsigned reading of the two bytes. -/
theorem readLightOperation : Obligations.ReadLightOperation := by
  refine ⟨oneTransactionOp_of_exec (i := .readLight) (fun _ => rfl) (by simp only [← combine_eq_ofNat]; rfl)
    (fun _ _ _ => rfl), fun r0 r1 => ?_⟩
  rw [← combine_eq_ofNat, decodedValue_light, combine_toNat_rat]

end Sys2Proof.Machine
end

section
/-! The frame of the seven operations with one transaction (R90, R92, R116). -/

namespace Sys2Proof.Machine

/-- What an operation with one transaction answers as a next state: the state it had, the state after acceptance, or the state
after its one answer, an error or a success. -/
theorem oneTransaction_next {i : Instr} {x : State → Transaction} {k : Byte → Byte → Response} {s t : State}
    (h : oneTransaction i x k s = .next t) :
    t = s ∨ t = { s.accept i with phase := .xfer1 } ∨
      ∃ d ds r, s.transport = d :: ds ∧ t = (s.record (x s) d ds).respond r := by
  obtain rfl | ⟨-, -, rfl⟩ | ⟨-, -, e, ds, hd, rfl⟩ | ⟨-, -, r0, r1, ds, hd, rfl⟩ := oneTransaction_cases h
  · exact .inl rfl
  · exact .inr (.inl rfl)
  · exact .inr (.inr ⟨_, ds, .err e, hd, rfl⟩)
  · exact .inr (.inr ⟨_, ds, k r0 r1, hd, rfl⟩)

/-- Each of the seven operations is `oneTransaction` with a transaction to DEV_ADDR, a write for the two commands and a
write-then-read for the five queries (R90, R92, R116). -/
theorem exec_eq_oneTransaction {i : Instr} (hi : i ∈ [Instr.reset, .triggerMeasurement, .isBusy, .readVersion,
      .readTemperature, .readCapacitance, .readLight]) :
    ∃ x k, exec i = oneTransaction i x k ∧ ∀ s, txnAddr (x s) = s.devAddr ∧
      ((∃ data, x s = .write s.devAddr data) ↔ (i = .reset ∨ i = .triggerMeasurement)) := by
  cases i with
  | new | release | setAddress => simp at hi
  | reset | triggerMeasurement => exact ⟨memWrite _ none, _, rfl, fun s => ⟨rfl, by simp [memWrite]⟩⟩
  | isBusy | readVersion | readTemperature | readCapacitance | readLight =>
    exact ⟨memRead _, _, rfl, fun s => ⟨rfl, by simp [memRead]⟩⟩

/-- Settles O24, over the three next states of an operation with one transaction. -/
theorem singleTransactionFrame : Obligations.SingleTransactionFrame := by
  intro i s t hi hexec
  obtain ⟨x, k, he, hx⟩ := exec_eq_oneTransaction hi
  obtain ⟨haddr, hwrite⟩ := hx s
  obtain rfl | rfl | ⟨d, ds, r, hd, rfl⟩ := oneTransaction_next (he ▸ hexec)
  · exact ⟨rfl, rfl, rfl, fun _ => rfl, .inl ⟨rfl, rfl, rfl⟩⟩
  · exact ⟨rfl, rfl, rfl, fun h => absurd h (by simp), .inl ⟨rfl, rfl, rfl⟩⟩
  · exact ⟨rfl, rfl, rfl, fun _ => rfl, .inr ⟨x s, _, r, d, rfl, rfl, hd, haddr, rfl, hwrite⟩⟩

end Sys2Proof.Machine
end

section
/-! R114: a float result is the nearest value of its format. Two facts meet: what rounding to the nearest integer does, and
that the shift puts the exact value into the binade of `p` bits. -/

namespace Sys2Proof.Machine

/-- Rounding goes down where the remainder is at most half of the divisor, or up where it is at least half. -/
theorem roundHalfEven_cases (a b : Nat) :
    (roundHalfEven a b = a / b ∧ 2 * (a % b) ≤ b) ∨ (roundHalfEven a b = a / b + 1 ∧ b ≤ 2 * (a % b)) := by
  unfold roundHalfEven
  split_ifs with hdown hup heven
  · exact .inl ⟨rfl, hdown.le⟩
  · exact .inr ⟨rfl, hup.le⟩
  · exact .inl ⟨rfl, not_lt.mp hup⟩
  · exact .inr ⟨rfl, not_lt.mp hdown⟩

/-- A remainder of exactly half is rounded to even. -/
theorem roundHalfEven_tie {a b : Nat} (h : 2 * (a % b) = b) : roundHalfEven a b % 2 = 0 := by
  unfold roundHalfEven
  rw [if_neg h.not_lt, if_neg h.not_gt]
  split_ifs with heven
  · exact heven
  · omega

/-- `m` is a nearest integer to `a / b`, and an even one where `a / b` is half way between two. -/
def nearestEven (a b m : Nat) : Prop :=
  2 * (b * m) ≤ 2 * a + b ∧ 2 * a ≤ 2 * (b * m) + b ∧ (2 * (b * m) = 2 * a + b ∨ 2 * a = 2 * (b * m) + b → m % 2 = 0)

theorem roundHalfEven_nearestEven {b : Nat} (hb : 0 < b) (a : Nat) : nearestEven a b (roundHalfEven a b) := by
  have hdiv := Nat.div_add_mod a b
  have hmod := Nat.mod_lt a hb
  obtain ⟨hm, hr⟩ | ⟨hm, hr⟩ := roundHalfEven_cases a b
  · have hprod : b * roundHalfEven a b = b * (a / b) := congrArg _ hm
    exact ⟨by omega, by omega, fun htie => roundHalfEven_tie (by omega)⟩
  · have hprod : b * roundHalfEven a b = b * (a / b) + b := by rw [hm, Nat.mul_succ]
    exact ⟨by omega, by omega, fun htie => roundHalfEven_tie (by omega)⟩

/-- Rounding stays between integers that bound the quotient. -/
theorem roundHalfEven_bounds {a b lo hi : Nat} (hb : 0 < b) (hlo : b * lo ≤ a) (hhi : a < b * hi) :
    lo ≤ roundHalfEven a b ∧ roundHalfEven a b ≤ hi := by
  have hge : lo ≤ a / b := (Nat.le_div_iff_mul_le hb).mpr (mul_comm b lo ▸ hlo)
  have hlt : a / b < hi := Nat.div_lt_of_lt_mul hhi
  obtain ⟨hm, -⟩ | ⟨hm, -⟩ := roundHalfEven_cases a b <;> rw [hm]
  · exact ⟨hge, hlt.le⟩
  · exact ⟨hge.trans (Nat.le_succ _), hlt⟩

/-- The magnitude `mag` shifted by `k` lies in the binade of `p` bits, in units of `655360 = 10 * 2^16` (R114). -/
def inBinade (p mag k : Nat) : Prop :=
  655360 * 2 ^ (p - 1) ≤ mag * 2 ^ k ∧ mag * 2 ^ k < 655360 * 2 ^ p

/-- A shift that is too small for the binade is, one more, still below the binade's end. -/
theorem lt_binade_end_succ {p mag k : Nat} (hp : 1 ≤ p) (h : mag * 2 ^ k < 655360 * 2 ^ (p - 1)) :
    mag * 2 ^ (k + 1) < 655360 * 2 ^ p := by
  obtain ⟨q, rfl⟩ := Nat.exists_eq_add_of_le' hp
  rw [Nat.add_sub_cancel] at h
  calc mag * 2 ^ (k + 1) = mag * 2 ^ k * 2 := by ring
    _ < 655360 * 2 ^ q * 2 := by omega
    _ = 655360 * 2 ^ (q + 1) := by ring

/-- The search for the shift ends in the binade: it starts below the binade's end, and its last shift is large enough. -/
theorem floatShift_inBinade {p mag : Nat} (hp : 1 ≤ p) : ∀ fuel k, mag * 2 ^ k < 655360 * 2 ^ p →
    655360 * 2 ^ (p - 1) ≤ mag * 2 ^ (k + fuel) → inBinade p mag (floatShift p mag fuel k)
  | 0, k, hlt, hge => ⟨hge, hlt⟩
  | fuel + 1, k, hlt, hge => by
    rw [floatShift]
    split_ifs with h
    · exact ⟨h, hlt⟩
    · refine floatShift_inBinade hp fuel (k + 1) (lt_binade_end_succ hp (not_le.mp h)) ?_
      rwa [Nat.add_right_comm, Nat.add_assoc]

/-- The shift of a nonzero reading puts it into the binade: `p + 20` shifts are enough, since `10 * 2^16 < 2^20`. -/
theorem floatShift_reading_inBinade {p mag : Nat} (hp : 1 ≤ p) (hpos : 0 < mag) (hmag : mag ≤ 65535) :
    inBinade p mag (floatShift p mag (p + 20) 0) := by
  have hpow : 2 ^ (p - 1) ≤ 2 ^ p := Nat.pow_le_pow_right (by decide) (Nat.sub_le p 1)
  refine floatShift_inBinade hp _ _ ?_ ?_
  · have := Nat.two_pow_pos p
    omega
  · calc 655360 * 2 ^ (p - 1) ≤ 2 ^ 20 * 2 ^ p := Nat.mul_le_mul (by decide) hpow
      _ = 2 ^ (0 + (p + 20)) := by rw [Nat.zero_add, Nat.pow_add, Nat.mul_comm]
      _ ≤ mag * 2 ^ (0 + (p + 20)) := Nat.le_mul_of_pos_left _ hpos

theorem scaledFloat_of_ne_zero {n : Int} (hn : n ≠ 0) (p : Nat) : scaledFloat ⟨p⟩ n =
    ⟨decide (n < 0), roundHalfEven (n.natAbs * 2 ^ floatShift p n.natAbs (p + 20) 0) 655360,
      floatShift p n.natAbs (p + 20) 0⟩ := if_neg hn

/-- Settles O31: the shift puts the exact value into the binade, and rounding takes the nearest significand there. -/
theorem floatResultIsNearest : Obligations.FloatResultIsNearest := by
  refine ⟨fun p => ⟨rfl, rfl⟩, fun p n hp hn hlo hhi => ?_⟩
  obtain ⟨hge, hlt⟩ := floatShift_reading_inBinade hp (Int.natAbs_pos.mpr hn) (by omega)
  obtain ⟨hmin, hmax⟩ := roundHalfEven_bounds (by decide) hge hlt
  rw [scaledFloat_of_ne_zero hn]
  exact ⟨rfl, hmin, hmax, hge, hlt, roundHalfEven_nearestEven (by decide) _⟩

end Sys2Proof.Machine
end

section
/-! A host's call of an operation with one transaction (R15, R46): refused, left without an answer, failed, or finished with the
bytes read. -/

namespace Sys2Proof.Machine

open Sys2Proof.Statements

variable {s t u : State} {i : Instr} {x : Transaction} {r : Response} {ls ls' : List (Transaction × Answer)}

/-- The step that sees the offer of an admitted operation runs it in the state before the offer. -/
theorem step_offer (ht : s.phase.inTransfer = false) (ha : admits s.phase i = true) : step (s.offer i) = exec i s :=
  step_admitted (s := s.offer i) ((Phase.inTransfer_eq_false_iff _).mp ht) rfl (commandWordRoundTrip i) ha

theorem finishTransfer_settled (fuel : Nat) (ht : s.phase.inTransfer = false) : finishTransfer fuel s = .next s := by
  cases fuel <;> simp [finishTransfer, ht]

theorem finishTransfer_step (fuel : Nat) (ht : s.phase.inTransfer = true) (hs : step s = .next t) :
    finishTransfer (fuel + 1) s = finishTransfer fuel t := by
  simp [finishTransfer, ht, hs]

theorem call_hung (hs : step (s.offer i) = .next t) (hf : finishTransfer 2 t = .next u)
    (hr : u.responses = s.responses) : call i s = .hung u := by
  simp [call, hs, hf, hr]

theorem call_answered (hs : step (s.offer i) = .next t) (hf : finishTransfer 2 t = .next u)
    (hr : u.responses = s.responses ++ [r]) : call i s = .answered r u := by
  simp [call, hs, hf, hr]

/-- In UNBOUND a call of another operation than `new` waits for ever (R15). -/
theorem call_unbound (hp : s.phase = .unbound) (hi : opOf i ≠ .new) : call i s = .hung (s.offer i) := by
  have ha : admits (s.offer i).phase i = false := by
    rw [State.offer_phase, hp]
    exact decide_eq_false hi
  exact call_hung (step_unadmitted (.inl hp) rfl (commandWordRoundTrip i) ha)
    (finishTransfer_settled 2 (by rw [State.offer_phase, hp]; rfl)) rfl

/-- The operation `i`, accepted in the state `s`, has the one transaction `x`. -/
def State.asksOnce (i : Instr) (x : Transaction) (s : State) : Prop :=
  busOp (opOf i) = true ∧ opOf i ≠ .setAddress ∧ (s.startTransfer i).outstanding = some x

theorem asksOnce_isBusy : s.asksOnce .isBusy (.writeRead s.devAddr [0x09#8] 1) := ⟨rfl, nofun, rfl⟩

theorem asksOnce_triggerMeasurement : s.asksOnce .triggerMeasurement (.write s.devAddr [0x03#8]) := ⟨rfl, nofun, rfl⟩

theorem asksOnce_readLight : s.asksOnce .readLight (.writeRead s.devAddr [0x04#8] 2) := ⟨rfl, nofun, rfl⟩

/-- The transactions of a history with their answers (R22). -/
def State.lines (s : State) : List (Transaction × Answer) := s.history.map fun e => (e.txn, e.answer)

/-- In `t` the engine is IDLE again, at the address it had in `s`, and has had `ls` answered since. -/
structure State.exchanged (ls : List (Transaction × Answer)) (s t : State) : Prop where
  phase : t.phase = .idle
  devAddr : t.devAddr = s.devAddr
  lines : t.lines = s.lines ++ ls

theorem State.exchanged.refl (hp : s.phase = .idle) : s.exchanged [] s := ⟨hp, rfl, (List.append_nil _).symm⟩

theorem State.exchanged.trans (h : s.exchanged ls t) (h' : t.exchanged ls' u) : s.exchanged (ls ++ ls') u :=
  ⟨h'.phase, h'.devAddr.trans h.devAddr, by rw [h'.lines, h.lines, List.append_assoc]⟩

theorem State.exchanged.history_length (h : s.exchanged ls t) : t.history.length = s.history.length + ls.length := by
  simpa [State.lines] using congrArg List.length h.lines

section
variable (hp : s.phase = .idle) (hx : s.asksOnce i x)
include hp hx

theorem step_offer_idle : step (s.offer i) = exec i s :=
  step_offer (hp ▸ rfl) (hp ▸ admits_idle_iff.mpr (.inr hx.1))

/-- With DEV_ADDR above 127 the call is refused (R12, U1). -/
theorem call_refused (hl : legalAddr s.devAddr = false) : call i s = .refused .addressOutOfRange := by
  have hs : step (s.offer i) = .refused .addressOutOfRange :=
    ((step_offer_idle hp hx).trans (exec_idle hp hx.1)).trans (issue_of_illegal hl)
  simp [call, hs]

theorem step_offer_starts (hl : legalAddr s.devAddr = true) : step (s.offer i) = .next (s.startTransfer i) :=
  (step_offer_idle hp hx).trans (exec_idle_starts hp hx.1 hl)

/-- With no answer the transaction of the call stays outstanding (D21, U9). -/
theorem call_silent (hl : legalAddr s.devAddr = true) (hd : s.transport = []) : call i s = .hung (s.startTransfer i) := by
  have hwait : step (s.startTransfer i) = .next (s.startTransfer i) :=
    (step_of_outstanding (startTransfer_sequencerLegal hx.1) hx.2.2).trans (onAnswer_silent hd)
  refine call_hung (step_offer_starts hp hx hl) ?_ rfl
  rw [finishTransfer_step 1 rfl hwait, finishTransfer_step 0 rfl hwait]
  rfl

/-- A call whose answer `d` leads to the response `r` returns `r`. -/
theorem call_of_step {d : Draw} {ds : List Draw} (hl : legalAddr s.devAddr = true)
    (hs : step (s.startTransfer i) = .next (((s.startTransfer i).record x d ds).respond r)) :
    ∃ t, call i s = .answered r t ∧ s.exchanged [(x, drawAnswer (readLen x) d)] t ∧ t.transport = ds :=
  ⟨_, call_answered (step_offer_starts hp hx hl) (finishTransfer_step 1 rfl hs) rfl, ⟨rfl, rfl, List.map_append⟩, rfl⟩

/-- A call whose transaction fails returns the error (R131). -/
theorem call_err {e : ErrT} {ds : List Draw} (hl : legalAddr s.devAddr = true) (hd : s.transport = .err e :: ds) :
    ∃ t, call i s = .answered (.err e) t ∧ s.exchanged [(x, .err e)] t ∧ t.transport = ds :=
  call_of_step hp hx hl (step_takes_err (startTransfer_sequencerLegal hx.1) hx.2.2 hd)

/-- A call whose transaction succeeds returns the response to the bytes read (R116). -/
theorem call_ok {r0 r1 : Byte} {ds : List Draw} (hl : legalAddr s.devAddr = true) (hd : s.transport = .ok r0 r1 :: ds) :
    ∃ t, call i s = .answered (responseTo (opOf i) r0 r1) t ∧
      s.exchanged [(x, .ok ([r0, r1].take (readLen x)))] t ∧ t.transport = ds :=
  call_of_step hp hx hl
    ((step_takes_ok (startTransfer_sequencerLegal hx.1) hx.2.2 hd).trans (afterOk_single hx.2.1 r0 r1 _))

end

/-- The results of a call of the operation `i` with the one transaction `x`. -/
inductive OneCall (i : Instr) (x : Transaction) (s : State) : CallResult → Prop where
  | refused (q : Refusal) : OneCall i x s (.refused q)
  | silent (t : State) (hx : t.outstanding = some x) (hh : t.history = s.history) : OneCall i x s (.hung t)
  | failed (e : ErrT) (t : State) (h : s.exchanged [(x, .err e)] t) : OneCall i x s (.answered (.err e) t)
  | finished (r0 r1 : Byte) (t : State) (h : s.exchanged [(x, .ok ([r0, r1].take (readLen x)))] t) :
      OneCall i x s (.answered (responseTo (opOf i) r0 r1) t)

/-- Everything a call from IDLE of an operation with one transaction can do. -/
theorem call_cases (hp : s.phase = .idle) (hx : s.asksOnce i x) : OneCall i x s (call i s) := by
  cases hl : legalAddr s.devAddr with
  | false => exact call_refused hp hx hl ▸ .refused _
  | true =>
    match hd : s.transport with
    | [] => exact call_silent hp hx hl hd ▸ .silent _ hx.2.2 rfl
    | .err e :: ds =>
      obtain ⟨t, hc, ht, -⟩ := call_err hp hx hl hd
      exact hc ▸ .failed e t ht
    | .ok r0 r1 :: ds =>
      obtain ⟨t, hc, ht, -⟩ := call_ok hp hx hl hd
      exact hc ▸ .finished r0 r1 t ht

/-- The state a call ends in, where the machine has not stopped. -/
def callState : CallResult → Option State
  | .answered _ s => some s
  | .hung s => some s
  | .fault _ => none
  | .refused _ => none

/-- From `s` to `t` the engine has issued at most `n` transactions, an outstanding one counted. -/
def issuesAtMost (n : Nat) (s t : State) : Prop := issuedCount s ≤ issuedCount t ∧ issuedCount t ≤ issuedCount s + n

theorem issuedCount_settled (ht : s.phase.inTransfer = false) : issuedCount s = s.history.length := by
  simp [issuedCount, outstanding_eq_none ht]

theorem issuedCount_idle (hp : s.phase = .idle) : issuedCount s = s.history.length := issuedCount_settled (hp ▸ rfl)

theorem issuedCount_outstanding (hx : s.outstanding = some x) : issuedCount s = s.history.length + 1 := by
  simp [issuedCount, hx]

theorem issuesAtMost.refl (s : State) : issuesAtMost 0 s s := ⟨le_rfl, le_rfl⟩

theorem issuesAtMost.mono {m n : Nat} (h : issuesAtMost m s t) (hmn : m ≤ n) : issuesAtMost n s t :=
  ⟨h.1, h.2.trans (Nat.add_le_add_left hmn _)⟩

theorem issuesAtMost_of_outstanding (hp : s.phase = .idle) (hx : t.outstanding = some x) (hh : t.history = s.history) :
    issuesAtMost 1 s t := by
  rw [issuesAtMost, issuedCount_outstanding hx, issuedCount_idle hp, hh]
  exact ⟨Nat.le_succ _, le_rfl⟩

/-- The transactions answered on the way count beside those issued from there. -/
theorem State.exchanged.issuesAtMost_add {n : Nat} (h : s.exchanged ls t) (hp : s.phase = .idle) (hu : issuesAtMost n t u) :
    issuesAtMost (ls.length + n) s u := by
  have ht : issuedCount t = issuedCount s + ls.length := by
    rw [issuedCount_idle h.phase, issuedCount_idle hp, h.history_length]
  unfold issuesAtMost at *
  omega

theorem State.exchanged.issuesAtMost_length (h : s.exchanged ls t) (hp : s.phase = .idle) : issuesAtMost ls.length s t :=
  h.issuesAtMost_add hp (.refl t)

theorem OneCall.issuesAtMost_one {c : CallResult} (h : OneCall i x s c) (hp : s.phase = .idle)
    (ht : callState c = some t) : issuesAtMost 1 s t := by
  cases h with
  | refused q => cases ht
  | silent v hx hh => cases ht; exact issuesAtMost_of_outstanding hp hx hh
  | failed e v h | finished r0 r1 v h => cases ht; exact h.issuesAtMost_length hp

end Sys2Proof.Machine
end

section
/-! `wait_ready` (R124, R127): the polls answered busy, and how it ends. -/

namespace Sys2Proof.Machine

open Sys2Proof.Statements

variable {s t : State} {bound i : Nat} {q : SeqResult}

/-- A poll of the sensor at `a` answered with the byte `b` (R100). -/
abbrev pollLine (a b : Byte) : Transaction × Answer := (.writeRead a [0x09#8] 1, .ok [b])

/-- The results of `wait_ready` from poll `i` on, with `bound` polls left. Where it is ready, `bytes` are the answers of the polls
that found the sensor busy before; elsewhere only the number of the answered polls is said. -/
inductive WaitEnds (s : State) (i bound : Nat) : SeqResult → Prop where
  | stillBusy (ls : List (Transaction × Answer)) (t : State) (hlen : ls.length ≤ bound) (h : s.exchanged ls t) :
      WaitEnds s i bound (.stillBusy t)
  | ready (bytes : List Byte) (t : State) (hb : ∀ b ∈ bytes, b ≠ 0x00#8) (hlen : bytes.length < bound)
      (h : s.exchanged ((bytes ++ [0x00#8]).map (pollLine s.devAddr)) t) :
      WaitEnds s i bound (.ready (i + bytes.length) t)
  | failed (ls : List (Transaction × Answer)) (e : ErrT) (t : State) (hlen : ls.length ≤ bound) (h : s.exchanged ls t) :
      WaitEnds s i bound (.err e t)
  | silent (ls : List (Transaction × Answer)) (x : Transaction) (t u : State) (hlen : ls.length < bound)
      (h : s.exchanged ls t) (hx : u.outstanding = some x) (hh : u.history = t.history) : WaitEnds s i bound (.hung u)
  | refused (r : Refusal) : WaitEnds s i bound (.refused r)

/-- A busy poll before the rest of `wait_ready`. -/
theorem WaitEnds.after_busy {b : Byte} (hb : b ≠ 0x00#8) (h : s.exchanged [pollLine s.devAddr b] t)
    (hq : WaitEnds t (i + 1) bound q) : WaitEnds s i (bound + 1) q := by
  cases hq with
  | stillBusy ls u hlen hu => exact .stillBusy (_ :: ls) u (Nat.succ_le_succ hlen) (h.trans hu)
  | ready bytes u hbs hlen hu =>
    rw [Nat.add_right_comm]
    exact .ready (b :: bytes) u (List.forall_mem_cons.mpr ⟨hb, hbs⟩) (Nat.succ_lt_succ hlen) (h.trans (h.devAddr ▸ hu))
  | failed ls e u hlen hu => exact .failed (_ :: ls) e u (Nat.succ_le_succ hlen) (h.trans hu)
  | silent ls x v u hlen hv hx hh => exact .silent (_ :: ls) x v u (Nat.succ_lt_succ hlen) (h.trans hv) hx hh
  | refused r => exact .refused r

theorem busyBit_eq_true_iff {b : Byte} : busyBit b = true ↔ b ≠ 0x00#8 := by simp [busyBit]

theorem busyBit_eq_false_iff {b : Byte} : busyBit b = false ↔ b = 0x00#8 := by simp [busyBit]

/-- Everything `wait_ready` can do from IDLE. -/
theorem waitReadyFrom_cases (bound : Nat) : ∀ (i : Nat) (s : State), s.phase = .idle →
    WaitEnds s i bound (waitReadyFrom i bound s) := by
  induction bound with
  | zero => exact fun i s hp => .stillBusy [] s le_rfl (.refl hp)
  | succ bound ih =>
    intro i s hp
    rw [waitReadyFrom_succ]
    have hc := call_cases hp asksOnce_isBusy
    generalize call .isBusy s = c at hc
    cases hc with
    | refused q => exact .refused q
    | silent t hx hh => exact .silent [] _ s t (Nat.succ_pos _) (.refl hp) hx hh
    | failed e t h => exact .failed [_] e t (Nat.le_add_left 1 bound) h
    | finished r0 r1 t h =>
      show WaitEnds s i (bound + 1) (afterPoll i _ (.answered (.bool (busyBit r0)) t))
      cases hb : busyBit r0 with
      | true => exact .after_busy (busyBit_eq_true_iff.mp hb) h (ih (i + 1) t h.phase)
      | false =>
        obtain rfl := busyBit_eq_false_iff.mp hb
        exact .ready [] t (by simp) (Nat.succ_pos _) h

theorem waitReady_cases (bound : Nat) (hp : s.phase = .idle) : WaitEnds s 1 bound (waitReady bound s) :=
  waitReadyFrom_cases bound 1 s hp

theorem WaitEnds.issuesAtMost_bound (h : WaitEnds s i bound q) (hp : s.phase = .idle) (ht : seqState q = some t) :
    issuesAtMost bound s t := by
  cases h with
  | stillBusy ls v hlen h | failed ls e v hlen h => cases ht; exact (h.issuesAtMost_length hp).mono hlen
  | ready bytes v hb hlen h => cases ht; exact (h.issuesAtMost_length hp).mono (by simpa using hlen)
  | silent ls x v w hlen h hx hh =>
    cases ht
    exact (h.issuesAtMost_add hp (issuesAtMost_of_outstanding h.phase hx hh)).mono hlen
  | refused r => cases ht

/-- In UNBOUND `wait_ready` issues nothing: its first poll is not accepted (R15). -/
theorem waitReady_unbound (hp : s.phase = .unbound) (ht : seqState (waitReady bound s) = some t) :
    issuedCount t = issuedCount s := by
  cases bound with
  | zero => cases ht; rfl
  | succ bound =>
    rw [waitReady, waitReadyFrom_succ, call_unbound (i := .isBusy) hp nofun] at ht
    cases ht
    have hs : s.phase.inTransfer = false := hp ▸ rfl
    rw [issuedCount_settled hs, issuedCount_settled (s := s.offer _) hs]
    rfl

/-- Settles O49, by the results of `wait_ready` in IDLE and in UNBOUND. -/
theorem waitReadyIssuesAtMostBound : Obligations.WaitReadyIssuesAtMostBound := by
  refine ⟨fun bound s t hs ht => ?_, fun s => rfl⟩
  obtain hp | hp := (Phase.inTransfer_eq_false_iff _).mp hs
  · have := waitReady_unbound hp ht
    omega
  · exact (waitReady_cases bound hp).issuesAtMost_bound hp ht

end Sys2Proof.Machine
end

section
/-! What `wait_ready` returns, by the answers its polls are given (R124, R127, R128). -/

namespace Sys2Proof.Machine

open Sys2Proof.Statements

variable {s t : State} {r0 r1 : Byte} {e : ErrT} {ds : List Draw}

section
variable (hp : s.phase = .idle) (hl : s.devAddr.toNat ≤ 127)
include hp hl

/-- A poll answered with a nonzero byte finds the sensor busy (R101). -/
theorem call_isBusy_busy (hr : r0 ≠ 0x00#8) (hd : s.transport = .ok r0 r1 :: ds) :
    ∃ t, call .isBusy s = .answered (.bool true) t ∧ s.exchanged [pollLine s.devAddr r0] t ∧ t.transport = ds :=
  busyBit_eq_true_iff.mpr hr ▸ call_ok hp asksOnce_isBusy (decide_eq_true hl) hd

/-- A poll answered with 0x00 finds the sensor ready (R101). -/
theorem call_isBusy_ready (hd : s.transport = .ok 0x00#8 r1 :: ds) :
    ∃ t, call .isBusy s = .answered (.bool false) t ∧ s.exchanged [pollLine s.devAddr 0x00#8] t ∧ t.transport = ds :=
  call_ok hp asksOnce_isBusy (decide_eq_true hl) hd

/-- A poll answered `Err(e)` returns the error (R100, R131). -/
theorem call_isBusy_err (hd : s.transport = .err e :: ds) :
    ∃ t, call .isBusy s = .answered (.err e) t ∧ t.phase = .idle ∧ t.transport = ds := by
  obtain ⟨t, hc, ht, hdt⟩ := call_err hp asksOnce_isBusy (decide_eq_true hl) hd
  exact ⟨t, hc, ht.phase, hdt⟩

end

/-- Polls answered with nonzero bytes use up the bound one by one, and `wait_ready` goes on from there. -/
theorem waitReadyFrom_busy (n : Nat) (polls : List (Byte × Byte)) : ∀ (i : Nat) (s : State), s.phase = .idle →
    s.devAddr.toNat ≤ 127 → (∀ p ∈ polls, p.1 ≠ 0x00#8) → s.transport = pollAnswers polls ++ ds →
    ∃ t, waitReadyFrom i (polls.length + n) s = waitReadyFrom (i + polls.length) n t ∧
      s.exchanged (polls.map fun p => pollLine s.devAddr p.1) t ∧ t.transport = ds := by
  induction polls with
  | nil => exact fun i s hp hl hb hd => ⟨s, by simp, .refl hp, hd⟩
  | cons p polls ih =>
    intro i s hp hl hb hd
    obtain ⟨hb0, hbs⟩ := List.forall_mem_cons.mp hb
    obtain ⟨u, hu, hsu, hdu⟩ := call_isBusy_busy hp hl hb0 hd
    obtain ⟨t, ht, hut, hdt⟩ := ih (i + 1) u hsu.phase (hsu.devAddr ▸ hl) hbs hdu
    refine ⟨t, ?_, hsu.trans (hsu.devAddr ▸ hut), hdt⟩
    rw [List.length_cons, Nat.succ_add, waitReadyFrom_succ, hu, afterPoll_busy, ht, Nat.add_assoc, Nat.add_comm 1]

section
variable {bound : Nat} {polls : List (Byte × Byte)} (hp : s.phase = .idle) (hl : s.devAddr.toNat ≤ 127)
  (hb : ∀ p ∈ polls, p.1 ≠ 0x00#8)
include hp hl hb

/-- Where the first zero byte comes within the bound, `wait_ready` is ready at that poll. -/
theorem waitReady_ready (hlen : polls.length < bound) (hd : s.transport = pollAnswers polls ++ .ok 0x00#8 r1 :: ds) :
    ∃ t ls, waitReady bound s = .ready (polls.length + 1) t ∧ s.exchanged ls t ∧ t.transport = ds := by
  obtain ⟨n, rfl⟩ := Nat.exists_eq_add_of_lt hlen
  obtain ⟨u, hu, hsu, hdu⟩ := waitReadyFrom_busy (n + 1) polls 1 s hp hl hb hd
  obtain ⟨t, ht, hut, hdt⟩ := call_isBusy_ready hsu.phase (hsu.devAddr ▸ hl) hdu
  refine ⟨t, _, ?_, hsu.trans hut, hdt⟩
  rw [waitReady, Nat.add_assoc, hu, waitReadyFrom_succ, ht, afterPoll_ready, Nat.add_comm]

/-- Where an error comes first, within the bound, `wait_ready` returns it. -/
theorem waitReady_err (hlen : polls.length < bound) (hd : s.transport = pollAnswers polls ++ .err e :: ds) :
    ∃ t, waitReady bound s = .err e t ∧ t.phase = .idle ∧ t.transport = ds := by
  obtain ⟨n, rfl⟩ := Nat.exists_eq_add_of_lt hlen
  obtain ⟨u, hu, hsu, hdu⟩ := waitReadyFrom_busy (n + 1) polls 1 s hp hl hb hd
  obtain ⟨t, ht, hpt, hdt⟩ := call_isBusy_err hsu.phase (hsu.devAddr ▸ hl) hdu
  refine ⟨t, ?_, hpt, hdt⟩
  rw [waitReady, Nat.add_assoc, hu, waitReadyFrom_succ, ht, afterPoll_err]

/-- Where the busy answers use the bound up, `wait_ready` returns `StillBusy`. -/
theorem waitReady_stillBusy (hd : s.transport = pollAnswers polls ++ ds) :
    ∃ t, waitReady polls.length s = .stillBusy t ∧ t.phase = .idle ∧ t.transport = ds := by
  obtain ⟨t, ht, hst, hdt⟩ := waitReadyFrom_busy 0 polls 1 s hp hl hb hd
  exact ⟨t, ht, hst.phase, hdt⟩

end

/-- The lines of a `wait_ready` that returned Ready(i). -/
theorem waitReady_eq_ready {bound i : Nat} (hp : s.phase = .idle) (h : waitReady bound s = .ready i t) :
    ∃ bytes : List Byte, bytes.length + 1 = i ∧ bytes.length < bound ∧ (∀ b ∈ bytes, b ≠ 0x00#8) ∧
      s.exchanged ((bytes ++ [0x00#8]).map (pollLine s.devAddr)) t := by
  have hw := waitReady_cases bound hp
  rw [h] at hw
  cases hw with
  | ready bytes t hb hlen hst => exact ⟨bytes, Nat.add_comm _ _, hlen, hb, hst⟩

/-- Settles O50: the first half reads the lines off the result, the second runs the polls. -/
theorem waitReadyReportsFirstZeroByte : Obligations.WaitReadyReportsFirstZeroByte := by
  refine ⟨?lines, ?ready, ?error, fun s polls ds hp hl hb hd => waitReady_stillBusy hp hl hb hd⟩
  case lines =>
    intro bound i s t hp _ h
    obtain ⟨bytes, rfl, hlen, hb, hst⟩ := waitReady_eq_ready hp h
    exact ⟨Nat.le_add_left 1 _, hlen, hst.phase, hst.devAddr, bytes, rfl, hb, hst.lines⟩
  case ready =>
    intro bound s polls r1 ds hp hl hb hlen hd
    obtain ⟨t, ls, h, hst, hdt⟩ := waitReady_ready hp hl hb hlen hd
    exact ⟨t, h, hst.phase, hdt⟩
  case error =>
    exact fun bound s polls e ds hp hl hb hlen hd => waitReady_err hp hl hb hlen hd

end Sys2Proof.Machine
end

section
/-! The polling loop with no bound (R126, U11): it goes on as long as every poll finds the sensor busy, and ends where the sensor
settles. -/

namespace Sys2Proof.Machine

variable {s : State} {answers : Nat → Draw}

/-- The draw answers a poll with a nonzero byte (R101). -/
def Draw.saysBusy (d : Draw) : Prop := ∃ r0 r1, d = .ok r0 r1 ∧ r0 ≠ 0x00#8

/-- A draw that does not answer busy is an error or answers 0x00. -/
theorem not_saysBusy_cases {d : Draw} (h : ¬ d.saysBusy) : (∃ e, d = .err e) ∨ ∃ r1, d = .ok 0x00#8 r1 := by
  cases d with
  | err e => exact .inl ⟨e, rfl⟩
  | ok r0 r1 =>
    obtain rfl : r0 = 0x00#8 := Decidable.byContradiction fun hr => h ⟨r0, r1, rfl, hr⟩
    exact .inr ⟨r1, rfl⟩

/-- While the polls find the sensor busy, the loop goes on, with one line more for each. -/
theorem pollLoopFrom_busy (fuel n : Nat) : ∀ (i : Nat) (s : State), s.phase = .idle → s.devAddr.toNat ≤ 127 →
    (∀ j, j < n → (answers (i + j)).saysBusy) →
    ∃ t ls, pollLoopFrom answers i (n + fuel) s = pollLoopFrom answers (i + n) fuel t ∧ s.exchanged ls t ∧
      ls.length = n := by
  induction n with
  | zero => exact fun i s hp hl hb => ⟨s, [], by simp, .refl hp, rfl⟩
  | succ n ih =>
    intro i s hp hl hb
    obtain ⟨r0, r1, hd, hr⟩ := hb 0 (Nat.succ_pos n)
    obtain ⟨u, hu, hsu, -⟩ := call_isBusy_busy (s := s.supply (answers i)) hp hl hr (congrArg (· :: s.transport) hd)
    obtain ⟨t, ls, ht, hut, hlen⟩ := ih (i + 1) u hsu.phase (hsu.devAddr ▸ hl)
      fun j hj => by rw [Nat.add_assoc, Nat.add_comm 1]; exact hb (j + 1) (Nat.succ_lt_succ hj)
    have hsu' : s.exchanged _ u := ⟨hsu.phase, hsu.devAddr, hsu.lines⟩
    refine ⟨t, _, ?_, hsu'.trans hut, by simp [hlen]⟩
    rw [Nat.succ_add, pollLoopFrom_succ, hu, afterPoll_busy, ht, Nat.add_assoc, Nat.add_comm 1]

/-- The loop watched for as many polls as find the sensor busy. -/
theorem pollLoop_stillBusy (hp : s.phase = .idle) (hl : s.devAddr.toNat ≤ 127) (hb : ∀ i, (answers i).saysBusy) (n : Nat) :
    ∃ t, pollLoop answers n s = .stillBusy t ∧ t.phase = .idle ∧ t.devAddr = s.devAddr ∧
      t.history.length = s.history.length + n := by
  obtain ⟨t, ls, ht, hst, rfl⟩ := pollLoopFrom_busy 0 n 0 s hp hl fun j _ => hb _
  exact ⟨t, ht, hst.phase, hst.devAddr, hst.history_length⟩

/-- Settles O51: the loop by `pollLoop_stillBusy`; the sensor stays as it is, which its contract allows of a query. -/
theorem unboundedPollingMayHang : Obligations.UnboundedPollingMayHang := by
  refine ⟨fun answers s hp hl hb => ⟨fun n => ?_, pollLoop_stillBusy hp hl hb⟩, fun answers x hx hk hb i => ?_⟩
  · obtain ⟨t, ht, -⟩ := pollLoop_stillBusy hp hl hb n
    exact ⟨t, ht⟩
  · obtain ⟨r0, r1, hd, hr⟩ := hb i
    exact ⟨rfl, x, query_unchanged_allowed hk ⟨[r0], by rw [hd]; rfl, .inl ⟨rfl, rfl, by simp [hr, hx]⟩⟩, .refl x⟩

/-- A sensor that is not busy does not answer a poll with a nonzero byte (R52). -/
theorem not_saysBusy_of_settled {x y : Sensor} {d : Draw} (hx : x.busy = false)
    (h : sensorAllows x (.writeRead x.addr [0x09#8] 1) (drawAnswer 1 d) y) : ¬ d.saysBusy := by
  rintro ⟨r0, r1, rfl, hr⟩
  have hq : queryBytes x [0x09#8] 1 [r0] := by
    simp only [sensorAllows, txnAddr_writeRead, ne_eq, not_true_eq_false, if_false] at h
    exact h.2
  obtain ⟨-, -, hbusy⟩ | ⟨h9, -⟩ := hq
  · simp [hx, hr] at hbusy
  · cases h9

/-- Where the sensor settles, some poll is the first that does not find it busy. -/
theorem exists_first_not_saysBusy {a : Byte} {sensors : Nat → Sensor} (hs : polledSensor a answers sensors)
    (hf : sensorSettlesFairly sensors) : ∃ n, ¬ (answers n).saysBusy ∧ ∀ j, j < n → (answers j).saysBusy := by
  classical
  obtain ⟨j, -, hj⟩ := hf 0
  obtain ⟨rfl, y, hy, -⟩ := hs j
  have hex : ∃ n, ¬ (answers n).saysBusy := ⟨j, not_saysBusy_of_settled hj hy⟩
  exact ⟨Nat.find hex, Nat.find_spec hex, fun j hj => not_not.mp (Nat.find_min hex hj)⟩

/-- The loop ends at the first poll that does not find the sensor busy: ready, or with the error of that poll. -/
theorem pollLoop_ends {n : Nat} (hp : s.phase = .idle) (hl : s.devAddr.toNat ≤ 127) (hn : ¬ (answers n).saysBusy)
    (hb : ∀ j, j < n → (answers j).saysBusy) :
    (∃ t, pollLoop answers (n + 1) s = .ready (n + 1) t ∧ t.phase = .idle) ∨
    ∃ e t, answers n = .err e ∧ pollLoop answers (n + 1) s = .err e t := by
  obtain ⟨u, ls, hu, hsu, -⟩ := pollLoopFrom_busy 1 n 0 s hp hl fun j hj => by rw [Nat.zero_add]; exact hb j hj
  rw [Nat.zero_add, pollLoopFrom_succ answers n 0 u] at hu
  have hlu : u.devAddr.toNat ≤ 127 := hsu.devAddr ▸ hl
  obtain ⟨e, hd⟩ | ⟨r1, hd⟩ := not_saysBusy_cases hn
  · obtain ⟨t, ht, -⟩ := call_isBusy_err (s := u.supply (answers n)) hsu.phase hlu (congrArg (· :: u.transport) hd)
    exact .inr ⟨e, t, hd, by rw [pollLoop, hu, ht, afterPoll_err]⟩
  · obtain ⟨t, ht, hut, -⟩ := call_isBusy_ready (s := u.supply (answers n)) hsu.phase hlu (congrArg (· :: u.transport) hd)
    exact .inl ⟨t, by rw [pollLoop, hu, ht, afterPoll_ready], hut.phase⟩

/-- Settles O52, at the first poll that does not find the sensor busy. -/
theorem pollingEndsWhereTheSensorSettles : Obligations.PollingEndsWhereTheSensorSettles := by
  intro answers sensors s hp hl hs hf
  obtain ⟨n, hn, hb⟩ := exists_first_not_saysBusy hs hf
  obtain ⟨t, ht, hpt⟩ | ⟨e, t, he, ht⟩ := pollLoop_ends hp hl hn hb
  · exact ⟨⟨n + 1, t, .inl ⟨n + 1, ht⟩⟩, fun _ => ⟨n + 1, n + 1, t, ht, hpt⟩⟩
  · exact ⟨⟨n + 1, t, .inr ⟨e, ht⟩⟩, fun hne => absurd he (hne n e)⟩

end Sys2Proof.Machine
end

section
/-! `measure_and_read_light` (R125): the trigger, the wait, and the query of the reading. -/

namespace Sys2Proof.Machine

open Sys2Proof.Statements

variable {s t u : State} {q : Instr} {bound : Nat} {r : Response}

/-- What `measure_and_read` does once the wait has ended (R125). -/
def readWhenReady (q : Instr) : SeqResult → SeqResult
  | .ready _ s => readLast q s
  | .stillBusy s => .stillBusy s
  | .err e s => .err e s
  | .value r s => .value r s
  | .hung s => .hung s
  | .fault f => .fault f
  | .refused r => .refused r

theorem measureAndRead_of_done (h : call .triggerMeasurement s = .answered .done u) :
    measureAndRead q bound s = readWhenReady q (waitReady bound u) := by
  simp only [measureAndRead, h]
  cases waitReady bound u <;> rfl

theorem measureAndRead_of_err {e : ErrT} (h : call .triggerMeasurement s = .answered (.err e) u) :
    measureAndRead q bound s = .err e u := by
  rw [measureAndRead, h]

theorem measureAndRead_of_hung (h : call .triggerMeasurement s = .hung u) : measureAndRead q bound s = .hung u := by
  rw [measureAndRead, h]

theorem measureAndRead_of_refused {c : Refusal} (h : call .triggerMeasurement s = .refused c) :
    measureAndRead q bound s = .refused c := by
  rw [measureAndRead, h]

theorem seqState_readLast : seqState (readLast q s) = callState (call q s) := by
  unfold readLast
  split <;> rename_i h <;> rw [h] <;> rfl

/-- Everything `measure_and_read` can do from IDLE: it ends at the trigger, or it is what follows the wait after a trigger
that returned `Done`. -/
theorem measureAndRead_cases (q : Instr) (bound : Nat) (hp : s.phase = .idle) :
    (seqState (measureAndRead q bound s) = callState (call .triggerMeasurement s) ∧
      ∀ r t, measureAndRead q bound s ≠ .value r t) ∨
    ∃ u, s.exchanged [(.write s.devAddr [0x03#8], .ok [])] u ∧
      measureAndRead q bound s = readWhenReady q (waitReady bound u) := by
  have hc := call_cases hp asksOnce_triggerMeasurement
  generalize h : call .triggerMeasurement s = c at hc
  cases hc with
  | refused c => rw [measureAndRead_of_refused h]; exact .inl ⟨rfl, nofun⟩
  | silent u => rw [measureAndRead_of_hung h]; exact .inl ⟨rfl, nofun⟩
  | failed e u => rw [measureAndRead_of_err h]; exact .inl ⟨rfl, nofun⟩
  | finished r0 r1 u hsu => exact .inr ⟨u, hsu, measureAndRead_of_done h⟩

/-- What follows the trigger issues at most one transaction beside the polls. -/
theorem readWhenReady_issuesAtMost (hp : s.phase = .idle)
    (ht : seqState (readWhenReady .readLight (waitReady bound s)) = some t) : issuesAtMost (bound + 1) s t := by
  have hw := waitReady_cases bound hp
  generalize waitReady bound s = w at ht hw
  have polls : seqState w = some t → issuesAtMost bound s t := hw.issuesAtMost_bound hp
  cases hw with
  | ready bytes u hb hlen hsu =>
    have hut := (call_cases hsu.phase asksOnce_readLight).issuesAtMost_one hsu.phase (seqState_readLast ▸ ht)
    exact (hsu.issuesAtMost_add hp hut).mono (by simpa using hlen)
  | stillBusy | failed | silent | refused => exact (polls ht).mono (Nat.le_succ bound)

theorem measureAndReadLight_issuesAtMost (hp : s.phase = .idle) (ht : seqState (measureAndReadLight bound s) = some t) :
    issuesAtMost (bound + 2) s t := by
  obtain ⟨hsame, -⟩ | ⟨u, hsu, hrest⟩ := measureAndRead_cases .readLight bound hp
  · exact ((call_cases hp asksOnce_triggerMeasurement).issuesAtMost_one hp (hsame ▸ ht)).mono (Nat.le_add_left 1 _)
  · rw [measureAndReadLight, hrest] at ht
    exact (hsu.issuesAtMost_add hp (readWhenReady_issuesAtMost hsu.phase ht)).mono (by simp; omega)

/-- A value of `readLast` is the response to the bytes that the query was answered with. -/
theorem readLast_light_eq_value (hp : s.phase = .idle) (h : readLast .readLight s = .value r t) :
    ∃ r0 r1, r = .u16 (combine r0 r1) ∧ s.exchanged [(.writeRead s.devAddr [0x04#8] 2, .ok [r0, r1])] t := by
  have hc := call_cases hp asksOnce_readLight
  unfold readLast at h
  generalize call .readLight s = c at h hc
  cases hc with
  | refused | silent | failed => cases h
  | finished r0 r1 u hsu => cases h; exact ⟨r0, r1, rfl, hsu⟩

/-- What follows the trigger returns a value only where the wait was ready. -/
theorem readWhenReady_eq_value (hp : s.phase = .idle) (h : readWhenReady q (waitReady bound s) = .value r t) :
    ∃ u ls, s.exchanged ls u ∧ readLast q u = .value r t := by
  have hw := waitReady_cases bound hp
  generalize waitReady bound s = w at h hw
  cases hw with
  | ready bytes u hb hlen hsu => exact ⟨u, _, hsu, h⟩
  | stillBusy | failed | silent | refused => cases h

theorem measureAndReadLight_eq_value (hp : s.phase = .idle) (h : measureAndReadLight bound s = .value r t) :
    ∃ r0 r1 ls, r = .u16 (combine r0 r1) ∧ s.exchanged (ls ++ [(.writeRead s.devAddr [0x04#8] 2, .ok [r0, r1])]) t := by
  obtain ⟨-, hne⟩ | ⟨u, hsu, hrest⟩ := measureAndRead_cases .readLight bound hp
  · exact absurd h (hne r t)
  · obtain ⟨v, ls, huv, hv⟩ := readWhenReady_eq_value hsu.phase (hrest.symm.trans h)
    have hsv := hsu.trans huv
    obtain ⟨r0, r1, hr, hvt⟩ := readLast_light_eq_value hsv.phase hv
    exact ⟨r0, r1, _, hr, hsv.trans (hsv.devAddr ▸ hvt)⟩

/-- Where each transaction is answered as it should be, the sequence returns the reading. -/
theorem measureAndReadLight_completes {polls : List (Byte × Byte)} {a b c r0 r1 : Byte} {ds : List Draw}
    (hp : s.phase = .idle) (hl : s.devAddr.toNat ≤ 127) (hb : ∀ p ∈ polls, p.1 ≠ 0x00#8) (hlen : polls.length < bound)
    (hd : s.transport = .ok a b :: (pollAnswers polls ++ .ok 0x00#8 c :: .ok r0 r1 :: ds)) :
    ∃ t, measureAndReadLight bound s = .value (.u16 (combine r0 r1)) t ∧ t.phase = .idle ∧ t.transport = ds := by
  obtain ⟨u, hu, hsu, hdu⟩ := call_ok hp asksOnce_triggerMeasurement (decide_eq_true hl) hd
  have hlu : u.devAddr.toNat ≤ 127 := hsu.devAddr ▸ hl
  obtain ⟨v, ls, hv, huv, hdv⟩ := waitReady_ready hsu.phase hlu hb hlen hdu
  obtain ⟨t, ht, hvt, hdt⟩ := call_ok huv.phase asksOnce_readLight (decide_eq_true (huv.devAddr ▸ hlu)) hdv
  refine ⟨t, ?_, hvt.phase, hdt⟩
  rw [measureAndReadLight, measureAndRead_of_done hu, hv, readWhenReady, readLast, ht]
  rfl

/-- Settles O53: the bound, the value and the completion, each by its lemma. -/
theorem measureAndReadLightReturnsLastReading : Obligations.MeasureAndReadLightReturnsLastReading := by
  refine ⟨?bound, ?value, ?completes⟩
  case bound =>
    intro bound s t hp _ ht
    exact (measureAndReadLight_issuesAtMost hp ht).2
  case value =>
    intro bound s t r hp _ h
    obtain ⟨r0, r1, ls, hr, hst⟩ := measureAndReadLight_eq_value hp h
    refine ⟨r0, r1, combine_eq_ofNat r0 r1 ▸ hr, ?_⟩
    rw [← State.lines, hst.lines, ← List.append_assoc, List.getLast?_concat]
  case completes =>
    intro bound s polls a b c r0 r1 ds hp hl hb hlen hd
    rw [← combine_eq_ofNat]
    exact measureAndReadLight_completes hp hl hb hlen hd

end Sys2Proof.Machine
end

section
/-! The host's freshness monitor (R121, R158, R159; log 25): what its state says of the events so far. -/

namespace Sys2Proof.Machine

open Sys2Proof.Statements

variable {es : List HostEvent} {e : HostEvent} {f : Freshness}

/-- A trigger returned `Done`, and `P` holds of the events since. -/
def triggeredSince (P : List HostEvent → Prop) (es : List HostEvent) : Prop :=
  ∃ before after, es = before ++ .performed .triggerMeasurement .done :: after ∧ P after

/-- The events add up to a wait of T_SETTLE, or hold a poll that answered not busy (R158). -/
def settledIn (es : List HostEvent) : Prop :=
  Config.settleMillis ≤ totalWait es ∨ .performed .isBusy (.bool false) ∈ es

/-- What the monitor's state says of the events that led to it. -/
def Freshness.saysOf : Freshness → List HostEvent → Prop
  | .stale, _ => True
  | .measuring w, es => triggeredSince (fun after => w = totalWait after) es
  | .current, es => triggeredSince settledIn es

theorem totalWait_append (es es' : List HostEvent) : totalWait (es ++ es') = totalWait es + totalWait es' := by
  induction es with
  | nil => simp [totalWait]
  | cons e es ih => cases e <;> simp [totalWait, ih, Nat.add_assoc]

theorem triggeredSince.concat {P Q : List HostEvent → Prop} (h : triggeredSince P es)
    (hPQ : ∀ after, P after → Q (after ++ [e])) : triggeredSince Q (es ++ [e]) := by
  obtain ⟨before, after, rfl, hP⟩ := h
  exact ⟨before, after ++ [e], by simp, hPQ after hP⟩

theorem settledIn.concat (h : settledIn es) (e : HostEvent) : settledIn (es ++ [e]) :=
  h.imp (fun hw => by rw [totalWait_append]; omega) (List.mem_append_left _)

theorem Freshness.saysOf_concat_performed {i : Instr} {r : Response} (h : f.saysOf es) :
    f.saysOf (es ++ [.performed i r]) := by
  cases f with
  | stale => trivial
  | measuring w => exact triggeredSince.concat h fun after hw => by rw [hw, totalWait_append]; rfl
  | current => exact triggeredSince.concat h fun after hs => hs.concat _

/-- Waiting while a measurement is under way adds to the wait, and makes the results current at T_SETTLE (log 25). -/
theorem Freshness.saysOf_waited {w : Nat} (h : (Freshness.measuring w).saysOf es) (ms : Nat) :
    (freshnessAfter (.measuring w) (.waited ms)).saysOf (es ++ [.waited ms]) := by
  have hw : ∀ after, w = totalWait after → w + ms = totalWait (after ++ [.waited ms]) :=
    fun after h => by rw [h, totalWait_append]; rfl
  rw [freshnessAfter]
  split
  · rename_i hs
    exact triggeredSince.concat h fun after ha => .inl (hw after ha ▸ hs)
  · exact triggeredSince.concat h hw

/-- Each event keeps what the monitor says true. -/
theorem freshnessAfter_saysOf (h : f.saysOf es) (e : HostEvent) : (freshnessAfter f e).saysOf (es ++ [e]) := by
  cases e with
  | waited ms =>
    cases f with
    | stale => trivial
    | measuring w => exact Freshness.saysOf_waited h ms
    | current => exact triggeredSince.concat h fun after hs => hs.concat _
  | performed i r =>
    cases i with
    | new | release | reset | setAddress => trivial
    | readVersion | readTemperature | readCapacitance | readLight => exact Freshness.saysOf_concat_performed h
    | triggerMeasurement =>
      rw [freshnessAfter]
      split
      · rename_i hr
        subst hr
        exact ⟨es, [], rfl, rfl⟩
      · trivial
    | isBusy =>
      cases f with
      | stale => trivial
      | current => exact Freshness.saysOf_concat_performed (f := .current) h
      | measuring w =>
        rw [freshnessAfter]
        split
        · rename_i hr
          subst hr
          exact triggeredSince.concat h fun after _ => .inr (by simp)
        · exact Freshness.saysOf_concat_performed (f := .measuring w) h

/-- The monitor's state after the events, from any state that says something true of the events before. -/
theorem foldl_freshnessAfter_saysOf (es' : List HostEvent) : ∀ {f es}, Freshness.saysOf f es →
    (es'.foldl freshnessAfter f).saysOf (es ++ es') := by
  induction es' with
  | nil => exact fun {f es} h => by simpa using h
  | cons e es' ih => exact fun {f es} h => by simpa using ih (freshnessAfter_saysOf h e)

/-- The last event of a run of fresh reads is one in the state the events before it lead to. -/
theorem readsFresh_of_freshReads_concat (h : freshReads f (es ++ [e]) = true) :
    readsFresh (es.foldl freshnessAfter f) e = true := by
  induction es generalizing f with
  | nil => exact (Bool.and_eq_true_iff.mp h).1
  | cons e' es ih => exact ih (Bool.and_eq_true_iff.mp h).2

/-- A result is taken as a safe event in the state `current` only (R154). -/
theorem current_of_readsFresh {i : Instr} {r : Response}
    (hi : (i = .readLight ∧ ∃ v, r = .u16 v) ∨ (i = .readCapacitance ∧ ∃ v, r = .u16 v) ∨
      (i = .readTemperature ∧ ∃ v, r = .s16 v))
    (h : readsFresh f (.performed i r) = true) : f = .current := by
  obtain ⟨rfl, v, rfl⟩ | ⟨rfl, v, rfl⟩ | ⟨rfl, v, rfl⟩ := hi <;> exact of_decide_eq_true h

/-- Settles O54: the monitor is in the state `current` at the read, and says so truly. -/
theorem freshReadFollowsTriggerAndSettling : Obligations.FreshReadFollowsTriggerAndSettling := by
  intro es i r hi h
  have hfresh := readsFresh_of_freshReads_concat (Bool.and_eq_true_iff.mp h).2
  have hsays := foldl_freshnessAfter_saysOf es (f := .stale) (es := []) trivial
  rw [current_of_readsFresh hi hfresh] at hsays
  exact hsays

end Sys2Proof.Machine
end

section
/-! R130: the engine never looks at an error. Each shared operation commutes with the renaming of errors, and so does the
step. -/

namespace Sys2Proof.Machine

variable {f : ErrT → ErrT} {s : State}

theorem drawAnswer_mapDraw (n : Nat) (d : Draw) : drawAnswer n (mapDraw f d) = mapAnswer f (drawAnswer n d) := by
  cases d <;> rfl

/-- The response to bytes that were read holds no error (R116). -/
theorem mapResponse_responseTo (op : Op) (r0 r1 : Byte) : mapResponse f (responseTo op r0 r1) = responseTo op r0 r1 := by
  cases op <;> rfl

theorem emit_mapErr (r : Response) : (s.mapErr f).emit (mapResponse f r) = (s.emit r).mapErr f := by
  simp [State.emit, State.mapErr]

theorem respond_mapErr (r : Response) : (s.mapErr f).respond (mapResponse f r) = (s.respond r).mapErr f := by
  simp [State.respond, State.emit, State.mapErr]

theorem record_mapErr (x : Transaction) (d : Draw) (ds : List Draw) :
    (s.mapErr f).record x (mapDraw f d) (ds.map (mapDraw f)) = (s.record x d ds).mapErr f := by
  simp [State.record, State.mapErr, drawAnswer_mapDraw]

theorem bindTo_mapErr (a : Byte) : (s.mapErr f).bindTo a = (s.bindTo a).mapErr f :=
  respond_mapErr (s := { s.accept (.new a) with devAddr := a }) .done

theorem unbind_mapErr : (s.mapErr f).unbind = s.unbind.mapErr f :=
  emit_mapErr (s := { s.accept .release with phase := .unbound }) .done

theorem adoptAddress_mapErr : (s.mapErr f).adoptAddress = s.adoptAddress.mapErr f :=
  respond_mapErr (s := { s with devAddr := s.argLatch }) .done

theorem issue_mapErr (p : Phase) : issue p (s.mapErr f) = mapResult f (issue p s) := by
  cases ha : legalAddr s.devAddr with
  | true => rw [issue_of_legal ha, issue_of_legal (s := s.mapErr f) ha]; rfl
  | false => rw [issue_of_illegal ha, issue_of_illegal (s := s.mapErr f) ha]; rfl

/-- How an operation goes on from an `Ok` answer does not depend on the errors recorded before. -/
theorem afterOk_mapErr (p : Phase) (op : Op) (r0 r1 : Byte) :
    afterOk p op r0 r1 (s.mapErr f) = mapResult f (afterOk p op r0 r1 s) := by
  unfold afterOk
  split_ifs
  · exact issue_mapErr .xfer2
  · exact congrArg _ adoptAddress_mapErr
  · have hresp := respond_mapErr (f := f) (s := s) (responseTo op r0 r1)
    rw [mapResponse_responseTo] at hresp
    exact congrArg _ hresp

/-- Consuming an answer commutes with the renaming: an error is handed on as it came (R131, R132). -/
theorem onAnswer_mapErr {x : Transaction} {k : Byte → Byte → State → Result}
    (hk : ∀ r0 r1 s, k r0 r1 (s.mapErr f) = mapResult f (k r0 r1 s)) :
    onAnswer x k (s.mapErr f) = mapResult f (onAnswer x k s) := by
  match hd : s.transport with
  | [] =>
    rw [onAnswer_silent hd, onAnswer_silent (congrArg (List.map (mapDraw f)) hd)]
    rfl
  | .err e :: ds =>
    rw [onAnswer_err hd, onAnswer_err (congrArg (List.map (mapDraw f)) hd)]
    have hrec : (s.mapErr f).record x (.err (f e)) (ds.map (mapDraw f)) = (s.record x (.err e) ds).mapErr f :=
      record_mapErr x (.err e) ds
    rw [hrec]
    exact congrArg _ (respond_mapErr (.err e))
  | .ok r0 r1 :: ds =>
    rw [onAnswer_ok hd, onAnswer_ok (congrArg (List.map (mapDraw f)) hd), ← hk]
    exact congrArg _ (record_mapErr x (.ok r0 r1) ds)

/-- Results related by the renaming are a result and its renaming. -/
theorem eq_mapResult_of_related {q r : Result} (h : resultsRelated (fun u v => v = u.mapErr f) q r) :
    r = mapResult f q := by
  cases q with
  | next u => obtain ⟨v, rfl, rfl⟩ := resultsRelated_next h; rfl
  | fault g => exact resultsRelated_fault h
  | refused c => exact resultsRelated_refused h

/-- In UNBOUND and IDLE: acceptance commutes with the renaming, since the only response it can give is `Done`. -/
theorem step_mapErr_offered (ht : s.phase.inTransfer = false) : step (s.mapErr f) = mapResult f (step s) :=
  eq_mapResult_of_related (step_offered_related rfl ht rfl rfl rfl
    (bind := fun a ws => bindTo_mapErr (s := { s with hostPort := ws }) a)
    (unbind := fun ws => unbind_mapErr (s := { s with hostPort := ws }))
    (start := fun _ _ => rfl))

/-- In XFER1 and XFER2: the outstanding transaction is the same, and its answer is the renamed one. -/
theorem step_mapErr_transfer (ht : s.phase.inTransfer = true) : step (s.mapErr f) = mapResult f (step s) := by
  by_cases hs : s.sequencerLegal
  · obtain ⟨x, hx, hstep⟩ := step_transfer ht hs
    rw [hstep, step_of_outstanding (s := s.mapErr f) hs hx]
    exact onAnswer_mapErr fun _ _ _ => afterOk_mapErr _ _ _ _
  · rw [step_transfer_stuck ht hs, step_transfer_stuck (s := s.mapErr f) ht hs]
    rfl

/-- Settles O35, by the renaming's rule for each PHASE. -/
theorem errorsNeverInspected : Obligations.ErrorsNeverInspected := by
  intro f s
  cases ht : s.phase.inTransfer with
  | false => exact step_mapErr_offered ht
  | true => exact step_mapErr_transfer ht

end Sys2Proof.Machine
end

section
/-! The transport error: its entry (R132), its one source (R131, R134), and what it leaves behind (R136). -/

namespace Sys2Proof.Machine

variable {s t : State} {e : ErrT}

/-- A transaction outstanding in XFER1 is one of a bus operation, so only XFER2 needs a premise on OP_LATCH (R14). -/
theorem sequencerLegal_of_outstanding {x : Transaction} (hx : s.outstanding = some x)
    (h2 : s.phase = .xfer2 → s.opLatch = .setAddress) : s.sequencerLegal := by
  refine ⟨fun hp => ?_, h2⟩
  cases ho : s.opLatch with
  | new | release => simp [State.outstanding, hp, ho] at hx
  | _ => rfl

/-- Settles O32: the step takes the answer to the outstanding transaction. -/
theorem transportErrorEntry : Obligations.TransportErrorEntry :=
  fun _ _ _ _ hx h2 hd => step_takes_err (sequencerLegal_of_outstanding hx h2) hx hd

/-- The response to bytes that were read is no error (R116, R138). -/
theorem responseTo_ne_err (op : Op) (r0 r1 : Byte) : responseTo op r0 r1 ≠ .err e := by
  cases op <;> nofun

/-- Settles O33, over the cases of a step: `failed` alone gives an error. -/
theorem errorOnlyFromTransport : Obligations.ErrorOnlyFromTransport := by
  intro s t e hstep hr
  cases step_cases hstep with
  | wait | issued | reissued | new | release | updated => simp at hr
  | finished x r0 r1 ds hp hx ho hd => exact absurd (by simpa using hr) (responseTo_ne_err s.opLatch r0 r1)
  | failed x e' ds hx h2 hd =>
    obtain rfl : e' = e := by simpa using hr
    exact ⟨⟨ds, hd⟩, outstanding_inTransfer hx, rfl, rfl⟩

/-- A call of one transaction keeps DEV_ADDR, whatever its answer (R90, R92, R116). -/
theorem callOne_frame {a : Byte} {x : Transaction} {bytes : Byte → Byte → List Byte} {k : Byte → Byte → Response}
    {ds : List Draw} {c : Call} (hc : callOne a x bytes k ds = some c) : c.devAddr = a ∧ c.entries.length = 1 := by
  obtain ⟨e, rest, -, rfl⟩ | ⟨r0, r1, rest, -, rfl⟩ := callOne_cases hc <;> exact ⟨rfl, rfl⟩

/-- A call of the operation table that ends in an error keeps DEV_ADDR and has at most two transactions (R94, R95, R134). -/
theorem callSpec_err {i : Instr} {a : Byte} {ds : List Draw} {c : Call} (hc : callSpec i a ds = some c)
    (he : c.response = .err e) : c.devAddr = a ∧ c.entries.length ≤ 2 := by
  cases i with
  | new | release => cases hc; cases he
  | setAddress x =>
    obtain ⟨e, rest, -, rfl⟩ | ⟨r0, r1, e, rest, -, rfl⟩ | ⟨r0, r1, q0, q1, rest, -, rfl⟩ := callSetAddress_cases hc
    · exact ⟨rfl, Nat.le_succ 1⟩
    · exact ⟨rfl, le_rfl⟩
    · cases he
  | _ =>
    obtain ⟨ha, hlen⟩ := callOne_frame hc
    exact ⟨ha, hlen.trans_le (Nat.le_succ 1)⟩

/-- An engine that is IDLE at the old address is as it was, but for its inputs, its records and dead latches (R16). -/
theorem sameButDeadLatches_of_idle (hs : s.phase = .idle) (ht : t.phase = .idle) (ha : t.devAddr = s.devAddr) :
    State.sameButDeadLatches
      { t with
        hostPort := s.hostPort
        transport := s.transport
        history := s.history
        accepted := s.accepted
        responses := s.responses } s := by
  refine sameButDeadLatches_iff.mpr ⟨s.opLatch, s.argLatch, ?_, ?_⟩
  · rw [ha, ht, ← hs]
  · simp [ht]

/-- Settles O34: the run of the blocking call ends in IDLE at the address of the call, which is the old one. -/
theorem failedOperationLeavesEngineAsBefore : Obligations.FailedOperationLeavesEngineAsBefore := by
  intro s w ws i c e hp hl hw hd hb hc he
  have hne : ∀ a, i ≠ .new a := by rintro a rfl; cases hb
  have hrel : i ≠ .release := by rintro rfl; cases hb
  obtain ⟨ha, hlen⟩ := callSpec_err hc he
  obtain ⟨k, t, rfl, hrun, hpt, hat, hrt, -⟩ := operationRunsAsBlockingCall s w ws i c hp hl hw hd hne hc
  exact ⟨_, t, Nat.add_le_add_left hlen 1, hrun, he ▸ hrt,
    sameButDeadLatches_of_idle hp (hpt.trans (if_neg hrel)) (hat.trans ha)⟩

end Sys2Proof.Machine
end

section
/-! With nothing offered the engine waits, after reset and between operations (R15, R151; log 26). -/

namespace Sys2Proof.Machine

/-- Settles O8: the fetch finds no word at the port, and a waiting step keeps the state. -/
theorem nothingHappensByItself : Obligations.NothingHappensByItself :=
  fun _ hphase hport => step_nothing_offered hphase hport

end Sys2Proof.Machine
end

section
/-! A transport that gives no answer is waited for (D21, U9): a waiting step is a fixed point, and a run never leaves one. -/

namespace Sys2Proof.Machine

variable {s : State} {x : Transaction}

/-- With no answer at hand, a step with a transaction outstanding waits (U9). -/
theorem step_silent (hs : s.sequencerLegal) (hx : s.outstanding = some x) (hd : s.transport = []) : step s = .next s :=
  (step_of_outstanding hs hx).trans (onAnswer_silent hd)

/-- A run from a state that a step keeps stays there. -/
theorem run_of_step_self (h : step s = .next s) : ∀ k : Nat, Host.Core.run Sys2Proof.core k s = .next s
  | 0 => run_zero s
  | k + 1 => (run_succ_next k h).trans (run_of_step_self h k)

/-- Settles O36: one step with no answer keeps the state, hence so does every run. -/
theorem silentTransportIsWaitedFor : Obligations.SilentTransportIsWaitedFor :=
  fun _ _ k hx h2 hd => run_of_step_self (step_silent (sequencerLegal_of_outstanding hx h2) hx hd) k

end Sys2Proof.Machine
end
